-- ==== Sys2Proof/Word.lean ====
section
/-! DEFINITION. The word types of the peripheral core: every register is a byte, every port and
CPU address is 16 bits wide (spec/00_scope.md rules R8 and R10), and a store of bytes is a list of
cells. -/

namespace Sys2Proof

/-- A register, a port value, a byte of memory: `u8` of rule R10. -/
abbrev Byte := BitVec 8

/-- A port number, a CPU address, a word of the identify block: `u16` of rule R10. -/
abbrev U16 := BitVec 16

/-- A store of bytes (the physical memory of rule R63, the backing store of rule R64) as the list
of the cells that have been given a value, addresses strictly rising. -/
abbrev Memory := List Host.Cell

end Sys2Proof
end

