-- ==== Sys2Proof/Machine/Flags.lean ====
section
/-! DEFINITION. The status flags and every computation the spec gives of them: masks of
spec/30_encoding.md rules R93 and R99, setters and clearers of spec/10_state.md rule R55. -/

namespace Sys2Proof.Machine

/-- `s |= m` (rule R12). -/
def setBits (s m : Byte) : Byte := s ||| m

/-- `s &= ~m` (rule R12). -/
def clearBits (s m : Byte) : Byte := s &&& ~~~m

/-! ### ACIA status (rule R93) -/

/-- Receive-data-full. -/
def rdrf : Byte := 0x01#8

/-- Transmit-empty. -/
def tdre : Byte := 0x02#8

/-- Interrupt-request. -/
def irq : Byte := 0x80#8

/-- Status bits 6:2, which always read 0 (rule R25). -/
def aciaReserved : Byte := 0x7C#8

/-- Rule R159: the status after a data read that took a byte, from whether the queue is now empty
and whether RIE is set. -/
def statusAfterDataRead (empty rie : Bool) (s : Byte) : Byte :=
  if empty then clearBits s (rdrf ||| irq)
  else if rie then setBits (setBits s rdrf) irq
  else setBits s rdrf

/-- Rule R159: the interrupt line after the same read. -/
def lineAfterDataRead (empty rie line : Bool) : Bool :=
  if empty then false else if rie then true else line

/-- Rule R161: the status after a byte has been received. -/
def statusAfterReceive (rie : Bool) (s : Byte) : Byte :=
  if rie then setBits (setBits s rdrf) irq else setBits s rdrf

/-- Rule R161: the interrupt line after a byte has been received. -/
def lineAfterReceive (rie line : Bool) : Bool := if rie then true else line

/-! ### IDE status and error (rule R99) -/

/-- Drive ready. -/
def drdy : Byte := 0x40#8

/-- Device fault. -/
def df : Byte := 0x20#8

/-- Seek complete. -/
def dsc : Byte := 0x10#8

/-- Data request. -/
def drq : Byte := 0x08#8

/-- Error. -/
def err : Byte := 0x01#8

/-- The error register's command-aborted code. -/
def abrt : Byte := 0x04#8

/-- Rule R201: the status after a data read that leaves the cursor at `cursor`. -/
def statusAfterSectorRead (cursor : Nat) (s : Byte) : Byte :=
  if cursor < 512 then setBits s drq else clearBits s drq

/-- Rule R208: the status IDENTIFY writes, whole. -/
def statusIdentified : Byte := drdy ||| dsc ||| drq

end Sys2Proof.Machine
end

