-- ==== Sys2Proof/Syntax.lean ====
section
/-! DEFINITION. The transactions of the core: one constructor of `Instr` per row of
spec/opcode_table.json, and the form in which a transaction is presented, a 16-bit key with its
operands beside it (spec/30_encoding.md rules R86 and R101). -/

namespace Sys2Proof

/-- A decoded transaction. `port` and `addr` are the u16 operands of rule R86, `v` the byte a write
carries in its key, `dev` a device instance's number among the instances of its kind (log entry
12). -/
inductive Instr where
  /-- R113: `ReadPort(port)`. -/
  | busRead (port : U16)
  /-- R115: `WritePort(port, v)`. -/
  | busWrite (port : U16) (v : Byte)
  /-- R127. -/
  | bankWrSelect (v : Byte)
  /-- R128. -/
  | bankRd
  /-- R155: control write with `v[1:0] = 11`. -/
  | aciaWrCtrlMr (dev : Nat) (v : Byte)
  /-- R154: control write with `v[1:0] ≠ 11`. -/
  | aciaWrCtrl (dev : Nat) (v : Byte)
  /-- R156. -/
  | aciaWrData (dev : Nat) (v : Byte)
  /-- R157. -/
  | aciaRdStatus (dev : Nat)
  /-- R158. -/
  | aciaRdData (dev : Nat)
  /-- R201. -/
  | ideRdData (dev : Nat)
  /-- R185. -/
  | ideRdError (dev : Nat)
  /-- R187. -/
  | ideRdSeccnt (dev : Nat)
  /-- R189. -/
  | ideRdSecnum (dev : Nat)
  /-- R191. -/
  | ideRdCyllo (dev : Nat)
  /-- R193. -/
  | ideRdCylhi (dev : Nat)
  /-- R195. -/
  | ideRdDrvhead (dev : Nat)
  /-- R197. -/
  | ideRdStatus (dev : Nat)
  /-- R203. -/
  | ideWrData (dev : Nat) (v : Byte)
  /-- R186. -/
  | ideWrFeatures (dev : Nat) (v : Byte)
  /-- R188. -/
  | ideWrSeccnt (dev : Nat) (v : Byte)
  /-- R190. -/
  | ideWrSecnum (dev : Nat) (v : Byte)
  /-- R192. -/
  | ideWrCyllo (dev : Nat) (v : Byte)
  /-- R194. -/
  | ideWrCylhi (dev : Nat) (v : Byte)
  /-- R196. -/
  | ideWrDrvhead (dev : Nat) (v : Byte)
  /-- R208: command 0xEC. -/
  | ideCmdIdentify (dev : Nat)
  /-- R210: command 0xEF. -/
  | ideCmdSetFeatures (dev : Nat)
  /-- R211: any other command code. -/
  | ideCmdOther (dev : Nat) (v : Byte)
  /-- R226. -/
  | dioRd (dev : Nat)
  /-- R227. -/
  | dioWr (dev : Nat) (v : Byte)
  /-- R131: `MemRead(addr, 1)`. -/
  | memRead (addr : U16)
  /-- R132: `MemWrite(addr, 1, v)`. -/
  | memWrite (addr : U16) (v : Byte)
  /-- R143: `GetContents(startAddress, buffer, startIndex, length)`. -/
  | memGetContents (startAddress : Int) (buffer : List Byte) (startIndex : Int) (length : Int)
  /-- R142: `SetContents(startAddress, buffer, startIndex, length)`. -/
  | memSetContents (startAddress : Int) (buffer : List Byte) (startIndex : Int) (length : Int)
  /-- R161: `RxData(v)`. -/
  | rxData (dev : Nat) (v : Byte)
  /-- R162. -/
  | irqQuery (dev : Nat)
  /-- R229. -/
  | dioSetInput (dev : Nat) (v : Byte)
  deriving DecidableEq, Repr

/-- The operands that travel beside the key (rule R101): the port number, the memory address, the
device instance and the bulk arguments. A transaction reads the fields its kind has in rule R86 and
no others (log entry 13). -/
structure Operands where
  port : U16 := 0#16
  addr : U16 := 0#16
  dev : Nat := 0
  startAddress : Int := 0
  buffer : List Byte := []
  startIndex : Int := 0
  length : Int := 0
  deriving DecidableEq, Repr

/-- A transaction as an agent presents it: its 16-bit key and the operands beside it. -/
structure Transaction where
  key : U16
  operands : Operands := {}
  deriving DecidableEq, Repr

end Sys2Proof
end

