-- ==== Sys2Proof/Decode.lean ====
section
/-! DEFINITION. The transaction key of spec/30_encoding.md rules R101, R102 and R104: the rows of
spec/opcode_table.json, the decoder that reads them in descending priority, its refusals by name,
and the encoder written from the key's own fields. -/

namespace Sys2Proof

/-- K[15]: direction, 1 = write or inject (rule R101). -/
def keyDirection (k : U16) : BitVec 1 := k.extractLsb' 15 1

/-- K[14:12]: unit (rule R101). -/
def keyUnit (k : U16) : BitVec 3 := k.extractLsb' 12 3

/-- K[11:8]: selector (rule R101). -/
def keySelector (k : U16) : BitVec 4 := k.extractLsb' 8 4

/-- K[7:0]: value (rule R101). -/
def keyValue (k : U16) : Byte := k.extractLsb' 0 8

/-- The key with direction `d`, unit `u`, selector `o` and value `v` (rule R101). -/
def mkKey (d : BitVec 1) (u : BitVec 3) (o : BitVec 4) (v : Byte) : U16 := d ++ u ++ o ++ v

/-- One row of the opcode table: a key matches when `key &&& mask = pattern`; `build` assembles the
transaction from the key's value and the operands beside it (rule R103). -/
structure Row where
  mnemonic : String
  pattern : U16
  mask : U16
  priority : Nat
  build : Byte → Operands → Instr

/-- Rule R102: `(K & mask) == match`. -/
def Row.covers (r : Row) (k : U16) : Bool := k &&& r.mask == r.pattern

/-- The rows of the bus and of BankedMemory's register. -/
def busRows : List Row :=
  [⟨"BUS_READ", 0x0000#16, 0xFFFF#16, 1, fun _ x => .busRead x.port⟩,
   ⟨"BUS_WRITE", 0x8000#16, 0xFF00#16, 1, fun v x => .busWrite x.port v⟩,
   ⟨"BANK_WR_SELECT", 0x9000#16, 0xFF00#16, 1, fun v _ => .bankWrSelect v⟩,
   ⟨"BANK_RD", 0x1000#16, 0xFFFF#16, 1, fun _ _ => .bankRd⟩]

/-- The ACIA's rows. -/
def aciaRows : List Row :=
  [⟨"ACIA_WR_CTRL_MR", 0xA003#16, 0xFF03#16, 2, fun v x => .aciaWrCtrlMr x.dev v⟩,
   ⟨"ACIA_WR_CTRL", 0xA000#16, 0xFF00#16, 1, fun v x => .aciaWrCtrl x.dev v⟩,
   ⟨"ACIA_WR_DATA", 0xA100#16, 0xFF00#16, 1, fun v x => .aciaWrData x.dev v⟩,
   ⟨"ACIA_RD_STATUS", 0x2000#16, 0xFFFF#16, 1, fun _ x => .aciaRdStatus x.dev⟩,
   ⟨"ACIA_RD_DATA", 0x2100#16, 0xFFFF#16, 1, fun _ x => .aciaRdData x.dev⟩]

/-- The IDE controller's read rows. -/
def ideReadRows : List Row :=
  [⟨"IDE_RD_DATA", 0x3000#16, 0xFFFF#16, 1, fun _ x => .ideRdData x.dev⟩,
   ⟨"IDE_RD_ERROR", 0x3100#16, 0xFFFF#16, 1, fun _ x => .ideRdError x.dev⟩,
   ⟨"IDE_RD_SECCNT", 0x3200#16, 0xFFFF#16, 1, fun _ x => .ideRdSeccnt x.dev⟩,
   ⟨"IDE_RD_SECNUM", 0x3300#16, 0xFFFF#16, 1, fun _ x => .ideRdSecnum x.dev⟩,
   ⟨"IDE_RD_CYLLO", 0x3400#16, 0xFFFF#16, 1, fun _ x => .ideRdCyllo x.dev⟩,
   ⟨"IDE_RD_CYLHI", 0x3500#16, 0xFFFF#16, 1, fun _ x => .ideRdCylhi x.dev⟩,
   ⟨"IDE_RD_DRVHEAD", 0x3600#16, 0xFFFF#16, 1, fun _ x => .ideRdDrvhead x.dev⟩,
   ⟨"IDE_RD_STATUS", 0x3700#16, 0xFFFF#16, 1, fun _ x => .ideRdStatus x.dev⟩]

/-- The IDE controller's register-write rows. -/
def ideWriteRows : List Row :=
  [⟨"IDE_WR_DATA", 0xB000#16, 0xFF00#16, 1, fun v x => .ideWrData x.dev v⟩,
   ⟨"IDE_WR_FEATURES", 0xB100#16, 0xFF00#16, 1, fun v x => .ideWrFeatures x.dev v⟩,
   ⟨"IDE_WR_SECCNT", 0xB200#16, 0xFF00#16, 1, fun v x => .ideWrSeccnt x.dev v⟩,
   ⟨"IDE_WR_SECNUM", 0xB300#16, 0xFF00#16, 1, fun v x => .ideWrSecnum x.dev v⟩,
   ⟨"IDE_WR_CYLLO", 0xB400#16, 0xFF00#16, 1, fun v x => .ideWrCyllo x.dev v⟩,
   ⟨"IDE_WR_CYLHI", 0xB500#16, 0xFF00#16, 1, fun v x => .ideWrCylhi x.dev v⟩,
   ⟨"IDE_WR_DRVHEAD", 0xB600#16, 0xFF00#16, 1, fun v x => .ideWrDrvhead x.dev v⟩]

/-- The IDE controller's command rows. -/
def ideCommandRows : List Row :=
  [⟨"IDE_CMD_IDENTIFY", 0xB7EC#16, 0xFFFF#16, 2, fun _ x => .ideCmdIdentify x.dev⟩,
   ⟨"IDE_CMD_SET_FEATURES", 0xB7EF#16, 0xFFFF#16, 2, fun _ x => .ideCmdSetFeatures x.dev⟩,
   ⟨"IDE_CMD_OTHER", 0xB700#16, 0xFF00#16, 1, fun v x => .ideCmdOther x.dev v⟩]

/-- The rows of DigitalIO, of the CPU memory window and of the sideband. -/
def otherRows : List Row :=
  [⟨"DIO_RD", 0x4000#16, 0xFFFF#16, 1, fun _ x => .dioRd x.dev⟩,
   ⟨"DIO_WR", 0xC000#16, 0xFF00#16, 1, fun v x => .dioWr x.dev v⟩,
   ⟨"MEM_READ", 0x5000#16, 0xFFFF#16, 1, fun _ x => .memRead x.addr⟩,
   ⟨"MEM_WRITE", 0xD000#16, 0xFF00#16, 1, fun v x => .memWrite x.addr v⟩,
   ⟨"MEM_GET_CONTENTS", 0x5100#16, 0xFFFF#16, 1,
     fun _ x => .memGetContents x.startAddress x.buffer x.startIndex x.length⟩,
   ⟨"MEM_SET_CONTENTS", 0xD100#16, 0xFFFF#16, 1,
     fun _ x => .memSetContents x.startAddress x.buffer x.startIndex x.length⟩,
   ⟨"RX_DATA", 0xE000#16, 0xFF00#16, 1, fun v x => .rxData x.dev v⟩,
   ⟨"IRQ_QUERY", 0x6100#16, 0xFFFF#16, 1, fun _ x => .irqQuery x.dev⟩,
   ⟨"DIO_SET_INPUT", 0xE200#16, 0xFF00#16, 1, fun v x => .dioSetInput x.dev v⟩]

/-- The opcode table, in its own order. -/
def rows : List Row :=
  busRows ++ aciaRows ++ ideReadRows ++ ideWriteRows ++ ideCommandRows ++ otherRows

/-- The rows of one priority. -/
def rowsOfPriority (p : Nat) : List Row := rows.filter fun r => r.priority == p

/-- Rule R102: rows are tried in descending order of priority, and the first that covers the key
decides. The table's priorities are 2 and 1. -/
def rowOf (k : U16) : Option Row :=
  (rowsOfPriority 2 ++ rowsOfPriority 1).find? fun r => r.covers k

/-- Why a key spells no transaction (spec/30_encoding.md rule R104, last item). -/
inductive KeyError where
  /-- U = 7. -/
  | reservedUnit
  /-- The unit has no such selector or register offset: BUS O ≠ 0, BANK O ≥ 1, ACIA O ≥ 2, IDE
  O ≥ 8, DIO O ≥ 1, MEM O ≥ 2, SIDE O ≥ 3. -/
  | noSuchSelector
  /-- D = 0 with V ≠ 0. -/
  | readCarriesValue
  /-- The selector exists in the other direction only: reading RxData or DIO input set, writing the
  interrupt query. -/
  | wrongDirection
  /-- D = 1 with V ≠ 0 for the bulk write, a kind that carries no byte. -/
  | bulkCarriesValue
  deriving DecidableEq, Repr

/-- The number of selectors of each unit, in the order BUS, BANK, ACIA, IDE, DIO, MEM, SIDE (rule
R101, and the range sizes of spec/40_port_bus.md rule R112). -/
def selectorCount (u : BitVec 3) : Nat :=
  match u.toNat with
  | 0 => 1
  | 1 => 1
  | 2 => 2
  | 3 => 8
  | 4 => 1
  | 5 => 2
  | 6 => 3
  | _ => 0

/-- The name under which a key that no row covers is rejected. -/
def keyError (k : U16) : KeyError :=
  if keyUnit k = 7#3 then .reservedUnit
  else if selectorCount (keyUnit k) ≤ (keySelector k).toNat then .noSuchSelector
  else if keyDirection k = 0#1 ∧ keyValue k ≠ 0#8 then .readCarriesValue
  else if keyUnit k = 5#3 then .bulkCarriesValue
  else .wrongDirection

/-- The decoder: total on every key and every operands, rejecting by name (rules R102 and R104). -/
def decode (t : Transaction) : Except KeyError Instr :=
  match rowOf t.key with
  | some r => .ok (r.build (keyValue t.key) t.operands)
  | none => .error (keyError t.key)

/-- The encoder, from the key fields of rule R101 and the operand fields of rule R86; an operand
field the kind does not have is left at its zero. -/
def encode : Instr → Transaction
  | .busRead p => ⟨mkKey 0 0 0 0, { port := p }⟩
  | .busWrite p v => ⟨mkKey 1 0 0 v, { port := p }⟩
  | .bankWrSelect v => ⟨mkKey 1 1 0 v, {}⟩
  | .bankRd => ⟨mkKey 0 1 0 0, {}⟩
  | .aciaWrCtrlMr d v => ⟨mkKey 1 2 0 v, { dev := d }⟩
  | .aciaWrCtrl d v => ⟨mkKey 1 2 0 v, { dev := d }⟩
  | .aciaWrData d v => ⟨mkKey 1 2 1 v, { dev := d }⟩
  | .aciaRdStatus d => ⟨mkKey 0 2 0 0, { dev := d }⟩
  | .aciaRdData d => ⟨mkKey 0 2 1 0, { dev := d }⟩
  | .ideRdData d => ⟨mkKey 0 3 0 0, { dev := d }⟩
  | .ideRdError d => ⟨mkKey 0 3 1 0, { dev := d }⟩
  | .ideRdSeccnt d => ⟨mkKey 0 3 2 0, { dev := d }⟩
  | .ideRdSecnum d => ⟨mkKey 0 3 3 0, { dev := d }⟩
  | .ideRdCyllo d => ⟨mkKey 0 3 4 0, { dev := d }⟩
  | .ideRdCylhi d => ⟨mkKey 0 3 5 0, { dev := d }⟩
  | .ideRdDrvhead d => ⟨mkKey 0 3 6 0, { dev := d }⟩
  | .ideRdStatus d => ⟨mkKey 0 3 7 0, { dev := d }⟩
  | .ideWrData d v => ⟨mkKey 1 3 0 v, { dev := d }⟩
  | .ideWrFeatures d v => ⟨mkKey 1 3 1 v, { dev := d }⟩
  | .ideWrSeccnt d v => ⟨mkKey 1 3 2 v, { dev := d }⟩
  | .ideWrSecnum d v => ⟨mkKey 1 3 3 v, { dev := d }⟩
  | .ideWrCyllo d v => ⟨mkKey 1 3 4 v, { dev := d }⟩
  | .ideWrCylhi d v => ⟨mkKey 1 3 5 v, { dev := d }⟩
  | .ideWrDrvhead d v => ⟨mkKey 1 3 6 v, { dev := d }⟩
  | .ideCmdIdentify d => ⟨mkKey 1 3 7 0xEC, { dev := d }⟩
  | .ideCmdSetFeatures d => ⟨mkKey 1 3 7 0xEF, { dev := d }⟩
  | .ideCmdOther d v => ⟨mkKey 1 3 7 v, { dev := d }⟩
  | .dioRd d => ⟨mkKey 0 4 0 0, { dev := d }⟩
  | .dioWr d v => ⟨mkKey 1 4 0 v, { dev := d }⟩
  | .memRead a => ⟨mkKey 0 5 0 0, { addr := a }⟩
  | .memWrite a v => ⟨mkKey 1 5 0 v, { addr := a }⟩
  | .memGetContents a b i l =>
    ⟨mkKey 0 5 1 0, { startAddress := a, buffer := b, startIndex := i, length := l }⟩
  | .memSetContents a b i l =>
    ⟨mkKey 1 5 1 0, { startAddress := a, buffer := b, startIndex := i, length := l }⟩
  | .rxData d v => ⟨mkKey 1 6 0 v, { dev := d }⟩
  | .irqQuery d => ⟨mkKey 0 6 1 0, { dev := d }⟩
  | .dioSetInput d v => ⟨mkKey 1 6 2 v, { dev := d }⟩

/-- The transaction whose key has the bits `w` (its lowest `nbits`), every operand beside it zero:
what the opcode table's own bits spell. A word with bits above the 16 of a key spells none. -/
def tableTransaction (nbits w : Nat) : Option Transaction :=
  if w % 2 ^ nbits < 2 ^ 16 then some ⟨BitVec.ofNat 16 (w % 2 ^ nbits), {}⟩ else none

/-- The transaction the decoder reads from a word of the opcode table. -/
def decodeTableWord (nbits w : Nat) : Option Instr :=
  match tableTransaction nbits w with
  | none => none
  | some t => (decode t).toOption

end Sys2Proof
end

