-- ==== Sys2Proof/Config.lean ====
section
/-! DEFINITION. What an implementation fixes: the configuration record of spec/00_scope.md rule R8,
and the free values the spec leaves open, as constants without a body. -/

namespace Sys2Proof

/-- The four device kinds of spec/10_state.md rule R23. -/
inductive DeviceKind where
  | bank | acia | ide | dio
  deriving DecidableEq, Repr

/-- A device instance: its kind and its number among the instances of that kind, counted from 0 in
installed order. BankedMemory has exactly one instance (decision D31 a). See log entry 12. -/
inductive DeviceRef where
  | bank
  | acia (n : Nat)
  | ide (n : Nat)
  | dio (n : Nat)
  deriving DecidableEq, Repr

/-- One entry of the board's `devices` list (rule R8): an instance and its base port. -/
structure Installed where
  base : U16
  dev : DeviceRef
  deriving DecidableEq, Repr

/-- The fixed parameters of one IDE controller (spec/10_state.md rule R45). -/
structure IdeConfig where
  driveIndex : Nat
  cylinders : U16
  heads : U16
  sectorsPerTrack : U16
  deriving DecidableEq, Repr

/-- `IDE_UNLISTED_CMD_POLICY` (decision D14). -/
inductive UnlistedCmdPolicy where
  | abort | refuse
  deriving DecidableEq, Repr

/-- `IDE_DATA_WRITE_POLICY` (decision D13): its only value is `refuse`. -/
inductive DataWritePolicy where
  | refuse
  deriving DecidableEq, Repr

/-- The configuration record of rule R8. It is fixed for the machine: no step changes it. -/
structure Config where
  /-- The installed devices with their bases, in installed order. -/
  devices : List Installed
  /-- `PORT_MASK` (decision D1). -/
  portMask : U16
  /-- `Size`: bytes of physical memory. -/
  size : Nat
  /-- `BankSize`: bytes per bank window. -/
  bankSize : Nat
  /-- The bytes of `MEM_INIT` (decision D21) that the launch fixes; the others are free, see
  `Config.unlistedByte`. -/
  memInit : Memory
  /-- Whether `MEM_HOOK` is present (decision D22). Its answers are inputs that the state holds. -/
  memHook : Bool
  /-- `ACIA_MR_CLEARS_IRQ_LINE` (decision D6). -/
  aciaMrClearsIrqLine : Bool
  /-- `RX_ATOMIC` (decision D8). -/
  rxAtomic : Bool
  /-- The IDE controllers' own parameters, by instance number. -/
  ides : List IdeConfig
  /-- `IDE_STORE_SECTORS` (decision D32). -/
  ideStoreSectors : Nat
  /-- `IDE_STATUS_RESET` (decision D11). -/
  ideStatusReset : Byte
  /-- `IDE_UNLISTED_CMD_POLICY` (decision D14). -/
  ideUnlistedCmd : UnlistedCmdPolicy
  /-- `IDE_DATA_WRITE_POLICY` (decision D13). -/
  ideDataWrite : DataWritePolicy
  /-- `IDENT_TEMPLATE` (decision D16). -/
  identTemplate : Vector U16 256
  /-- `IDENT_LBA_WORD` (decision D17). -/
  identLbaWord : Nat
  deriving DecidableEq, Repr

/-- The `draw()` of spec/43_ide.md rule R201: the byte the `count`-th read past the buffer end of
IDE instance `dev` returns. A free value: nothing constrains it (log entry 4). -/
opaque Config.draw : (dev count : Nat) → Byte

/-- The bytes of `MEM_INIT` that the launch leaves open: what physical byte `o` holds while nothing
has written it. A free value (decision D21, log entry 5). -/
opaque Config.unlistedByte : (o : Nat) → Byte

/-- What byte `o` of the backing store of IDE instance `dev` holds: the host file's contents
(spec/10_state.md rule R44). A free value (log entry 7). -/
opaque Config.storeByte : (dev o : Nat) → Byte

/-- The words of `IDENT_TEMPLATE` on the board of the reset state. A free value (decision D16, log
entry 8). -/
opaque Config.identWord : (k : Nat) → U16

/-- `IDE_STORE_SECTORS` on the board of the reset state. A free value (decision D32, log entry 7). -/
opaque Config.storeSectors : Nat

/-- Board B of spec/95_test_vectors.md, the board of the reset state (log entry 2). -/
def Config.boardB : Config where
  devices := [⟨0x78#16, .bank⟩, ⟨0x80#16, .acia 0⟩, ⟨0x10#16, .ide 0⟩, ⟨0x00#16, .dio 0⟩]
  portMask := 0xFFFF#16
  size := 0x100000
  bankSize := 0x8000
  memInit := []
  memHook := false
  aciaMrClearsIrqLine := false
  rxAtomic := true
  ides := [⟨0, 980#16, 10#16, 32#16⟩]
  ideStoreSectors := Config.storeSectors
  ideStatusReset := 0x50#8
  ideUnlistedCmd := .abort
  ideDataWrite := .refuse
  identTemplate := Vector.ofFn fun k => Config.identWord k
  identLbaWord := 60

/-- Every condition of decision D31 that construction checks, and the two that this model's own
layout of a configuration adds (log entry 16). `ConfigInvalid` of spec/60_exceptions.md rule R237
records the one that fails; which of several that fail is the model's choice (`Config.failed`). -/
inductive ConfigCondition where
  /-- D31 (a): exactly one BankedMemory instance. -/
  | oneBankedMemory
  /-- D31 (b): `0x8000 <= BankSize <= 0x10000` and `Size >= 2*BankSize`. -/
  | bankSizes
  /-- D31 (c): every device's range ends at port 0xFFFF or below. -/
  | portRange
  /-- D31 (d): every drive index is 0 or 1. -/
  | driveIndex
  /-- D31 (e): every `C*H*S` fits 32 bits. -/
  | geometryProduct
  /-- D31 (f): bit 3 of `IDE_STATUS_RESET` is 0. -/
  | statusResetDrq
  /-- D31 (g): `IDENT_LBA_WORD` in 0..254 and not in {0, 1, 2, 3, 5, 6}. -/
  | lbaWord
  /-- The model's own: instances are numbered 0, 1, … in installed order, each installed once. -/
  | deviceNumbers
  /-- The model's own: the listed bytes of `MEM_INIT` are in canonical form and below `Size`. -/
  | memInit
  deriving DecidableEq, Repr

end Sys2Proof
end

