-- ==== Sys2Proof/Machine/Devices.lean ====
section
/-! DEFINITION. The registers of each device kind (spec/10_state.md rules R24–R51) and the event
trace's entries (rule R52), as plain data. -/

namespace Sys2Proof.Machine

/-- One ACIA (rules R24–R28). -/
structure Acia where
  /-- The last byte written to the control address, raw. -/
  control : Byte
  status : Byte
  /-- The receive holding register. -/
  hold : Byte
  /-- The receive queue, oldest byte first. -/
  rxq : List Byte
  /-- The externally observable interrupt line. -/
  irqLine : Bool
  deriving DecidableEq, Repr

/-- One IDE controller (rules R35–R44). -/
structure Ide where
  error : Byte
  features : Byte
  seccount : Byte
  secnum : Byte
  cyllo : Byte
  cylhi : Byte
  drvhead : Byte
  status : Byte
  buffer : Vector Byte 512
  cursor : Nat
  /-- The written bytes of the backing store, by byte offset `512 * sector + index`. -/
  store : Memory
  /-- The model's own: how many values have been drawn past the buffer end (log entry 4). -/
  draws : Nat
  deriving DecidableEq, Repr

/-- The BankedMemory (rules R47 and R48). -/
structure Bank where
  bank : Byte
  phys : Memory
  deriving DecidableEq, Repr

/-- One DigitalIO (rule R50). -/
structure Dio where
  input : Byte
  deriving DecidableEq, Repr

/-- An entry of the event trace (rule R52); `dev` is the number of the ACIA or DigitalIO instance. -/
inductive Event where
  | txByte (dev : Nat) (b : Byte)
  | dioOut (dev : Nat) (b : Byte)
  deriving DecidableEq, Repr

end Sys2Proof.Machine
end

