-- ==== Sys2Proof/Machine/Memory.lean ====
section
/-! DEFINITION. Byte stores: a list of cells with strictly rising addresses. An address with no cell
holds no value in the data; what a reader sees there is the free value the caller names (log
entries 5 and 7). -/

namespace Sys2Proof

/-- The value listed at address `o`, if there is one. -/
def Memory.get? : Memory → Nat → Option Byte
  | [], _ => none
  | (a, b) :: m, o => if o = a then some b else Memory.get? m o

/-- The store with byte `v` at address `o`. -/
def Memory.write : Memory → Nat → Byte → Memory
  | [], o, v => [(o, v)]
  | (a, b) :: m, o, v =>
    if o < a then (o, v) :: (a, b) :: m
    else if o = a then (o, v) :: m
    else (a, b) :: Memory.write m o v

/-- Whether every listed address lies above `o`. -/
def Memory.above (o : Nat) (m : Memory) : Bool := m.all fun c => decide (o < c.1)

/-- The canonical form: addresses strictly rising. -/
def Memory.wf : Memory → Bool
  | [] => true
  | (a, _) :: m => Memory.above a m && Memory.wf m

/-- Whether every listed address lies below `n`. -/
def Memory.below (n : Nat) (m : Memory) : Bool := m.all fun c => decide (c.1 < n)

/-- Physical byte `o` (`PhysRead`, rule R11): the listed value, else the free byte of `MEM_INIT`. -/
def Memory.physRead (m : Memory) (o : Nat) : Byte :=
  match Memory.get? m o with
  | some b => b
  | none => Config.unlistedByte o

end Sys2Proof
end

