-- ==== Sys2Proof/Machine/Operands.lean ====
section
/-! DEFINITION. How every operand is formed from a transaction's fields, the configuration and the
registers (spec/30_encoding.md rule R103): the port decoder, the bank mapping, the drive-select
gate, the bulk argument check and the identify block. -/

namespace Sys2Proof.Machine

/-! ### Bytes and bits -/

/-- `lo8` of rule R10. -/
def lo8 (w : U16) : Byte := w.extractLsb' 0 8

/-- `hi8` of rule R10. -/
def hi8 (w : U16) : Byte := w.extractLsb' 8 8

/-! ### The port decoder (spec/40_port_bus.md rules R111 and R112) -/

/-- The kind of an instance. -/
def kindOf : DeviceRef → DeviceKind
  | .bank => .bank
  | .acia _ => .acia
  | .ide _ => .ide
  | .dio _ => .dio

/-- Rule R112: how many ports a device of this kind owns. -/
def portCount : DeviceKind → Nat
  | .bank => 1
  | .acia => 2
  | .ide => 8
  | .dio => 1

/-- Rule R111: `off = (p & PORT_MASK) - (base & PORT_MASK)` as an integer, matched iff
`0 <= off < n`. -/
def portOffset (mask base : U16) (n : Nat) (p : U16) : Option Nat :=
  let off : Int := ((p &&& mask).toNat : Int) - ((base &&& mask).toNat : Int)
  if 0 ≤ off ∧ off < (n : Int) then some off.toNat else none

/-- The offset at which an installed device recognizes port `p`, if it does. -/
def matchPort (c : Config) (d : Installed) (p : U16) : Option Nat :=
  portOffset c.portMask d.base (portCount (kindOf d.dev)) p

/-! ### The bank mapping (spec/41_banked_memory.md rules R127 and R129) -/

/-- Rule R127: the bank number a bank-select write of `v` selects. -/
def bankNumber (v : Byte) : Byte := v >>> 1

/-- Rule R129: `PhysOff(a)`, on naturals without wrap-around. -/
def physOff (c : Config) (bank : Byte) (a : U16) : Nat :=
  if a.toNat < c.bankSize then a.toNat + bank.toNat * c.bankSize
  else (c.size - 2 * c.bankSize) + a.toNat

/-! ### ACIA control fields (spec/30_encoding.md rule R92) -/

/-- Control bit 7, RIE. -/
def rie (control : Byte) : Bool := control.getLsbD 7

/-- The master-reset pattern: `v[1:0] = 11`. -/
def isMasterReset (v : Byte) : Bool := v.extractLsb' 0 2 == 3#2

/-! ### IDE operands -/

/-- Rule R181: drive/head bit 4 equals the configured drive index. -/
def driveSelected (drvhead : Byte) (driveIndex : Nat) : Bool :=
  (drvhead.getLsbD 4).toNat == driveIndex

/-- Rule R97: the SET FEATURES codes that are accepted. -/
def featureAccepted (f : Byte) : Bool := f == 0x01#8 || f == 0x03#8

/-- Rule R215: `N = C*H*S`. -/
def lbaCount (g : IdeConfig) : Nat := g.cylinders.toNat * g.heads.toNat * g.sectorsPerTrack.toNat

/-- Word `k` of the identify block (rule R215). -/
def identifyWord (c : Config) (g : IdeConfig) (k : Fin 256) : U16 :=
  if k.val = 1 then g.cylinders
  else if k.val = 3 then g.heads
  else if k.val = 6 then g.sectorsPerTrack
  else if k.val = c.identLbaWord then (BitVec.ofNat 32 (lbaCount g)).extractLsb' 0 16
  else if k.val = c.identLbaWord + 1 then (BitVec.ofNat 32 (lbaCount g)).extractLsb' 16 16
  else c.identTemplate[k]

/-- Byte `i` of the identify block: each word low byte first (rule R216). -/
def identifyByte (c : Config) (g : IdeConfig) (i : Fin 512) : Byte :=
  if i.val % 2 = 0 then lo8 (identifyWord c g ⟨i.val / 2, by omega⟩)
  else hi8 (identifyWord c g ⟨i.val / 2, by omega⟩)

/-- `IdentifyBlock` (rules R215 and R216). -/
def identifyBlock (c : Config) (g : IdeConfig) : Vector Byte 512 := Vector.ofFn (identifyByte c g)

/-! ### Bulk arguments (spec/41_banked_memory.md rule R141) -/

/-- Rule R141: whether the argument check fails. -/
def bulkCheckFails (startAddress : Int) (buffer : List Byte) (startIndex length : Int) : Bool :=
  decide (startAddress + length > 0x10000 ∨ startIndex < 0 ∨
    startIndex + length > (buffer.length : Int) ∨ startAddress < 0 ∨ length < 0)

/-- The bytes a bulk write moves: `buffer[startIndex .. startIndex + length - 1]` (rule R142). -/
def bulkSlice (buffer : List Byte) (startIndex length : Int) : List Byte :=
  (buffer.drop startIndex.toNat).take length.toNat

/-- The caller's buffer with `bytes` placed from `startIndex` on (rule R143). -/
def bulkFill (buffer : List Byte) (startIndex : Int) (bytes : List Byte) : List Byte :=
  buffer.take startIndex.toNat ++ bytes ++ buffer.drop (startIndex.toNat + bytes.length)

end Sys2Proof.Machine
end

