-- ==== Sys2Proof/WellFormed.lean ====
section
/-! DEFINITION. Which transactions are well formed (the ones a key spells, spec/30_encoding.md rule
R102) and which configurations are admitted (spec/92_eei_decisions.md D31). -/

namespace Sys2Proof

/-- The checks a transaction can fail. -/
inductive IllFormed where
  /-- A master reset whose value does not have bits 1:0 = 11 (rule R155). -/
  | notMasterReset
  /-- A configuring control write whose value has bits 1:0 = 11 (rule R154). -/
  | isMasterReset
  /-- An "other" command whose code is IDENTIFY's or SET FEATURES' (rule R211). -/
  | listedCommand
  deriving DecidableEq, Repr

/-- The check a transaction fails, if it fails one. -/
def Instr.illFormed : Instr → Option IllFormed
  | .aciaWrCtrlMr _ v => if v.extractLsb' 0 2 = 3#2 then none else some .notMasterReset
  | .aciaWrCtrl _ v => if v.extractLsb' 0 2 = 3#2 then some .isMasterReset else none
  | .ideCmdOther _ v => if v = 0xEC#8 ∨ v = 0xEF#8 then some .listedCommand else none
  | _ => none

/-- A transaction is well formed when it fails no check. -/
abbrev Instr.WellFormed (i : Instr) : Prop := i.illFormed = none

/-- The ACIA's number, if the instance is an ACIA. -/
def DeviceRef.aciaNumber : DeviceRef → Option Nat
  | .acia n => some n
  | _ => none

/-- The IDE controller's number, if the instance is one. -/
def DeviceRef.ideNumber : DeviceRef → Option Nat
  | .ide n => some n
  | _ => none

/-- The DigitalIO's number, if the instance is one. -/
def DeviceRef.dioNumber : DeviceRef → Option Nat
  | .dio n => some n
  | _ => none

/-- The numbers of the installed ACIAs, in installed order. -/
def Config.aciaNumbers (c : Config) : List Nat := c.devices.filterMap fun d => d.dev.aciaNumber

/-- The numbers of the installed IDE controllers, in installed order. -/
def Config.ideNumbers (c : Config) : List Nat := c.devices.filterMap fun d => d.dev.ideNumber

/-- The numbers of the installed DigitalIOs, in installed order. -/
def Config.dioNumbers (c : Config) : List Nat := c.devices.filterMap fun d => d.dev.dioNumber

/-- Whether a configuration meets one condition (decision D31). Condition (h), that
`IDE_STORE_SECTORS` is a natural, is its type. -/
def Config.meets (c : Config) : ConfigCondition → Bool
  | .oneBankedMemory => (c.devices.filter fun d => d.dev == .bank).length == 1
  | .bankSizes => decide (0x8000 ≤ c.bankSize ∧ c.bankSize ≤ 0x10000 ∧ 2 * c.bankSize ≤ c.size)
  | .portRange =>
    c.devices.all fun d =>
      decide (d.base.toNat + Machine.portCount (Machine.kindOf d.dev) - 1 ≤ 0xFFFF)
  | .driveIndex => c.ides.all fun g => decide (g.driveIndex ≤ 1)
  | .geometryProduct => c.ides.all fun g => decide (Machine.lbaCount g ≤ 0xFFFFFFFF)
  | .statusResetDrq => !c.ideStatusReset.getLsbD 3
  | .lbaWord => decide (c.identLbaWord ≤ 254) && !([0, 1, 2, 3, 5, 6].contains c.identLbaWord)
  | .deviceNumbers =>
    c.aciaNumbers == List.range c.aciaNumbers.length &&
    c.ideNumbers == List.range c.ides.length &&
    c.dioNumbers == List.range c.dioNumbers.length
  | .memInit => c.memInit.wf && Memory.below c.size c.memInit

/-- Every condition, in the order of decision D31, then the model's own. -/
def ConfigCondition.all : List ConfigCondition :=
  [.oneBankedMemory, .bankSizes, .portRange, .driveIndex, .geometryProduct, .statusResetDrq,
   .lbaWord, .deviceNumbers, .memInit]

/-- The condition a configuration fails, if it fails one. Of several, the first in the order of
`ConfigCondition.all`: DESIGN CHOICE (log entry 16), unsafe for a claim that names the one recorded;
spec/60_exceptions.md rule R237 says only "the failed condition". -/
def Config.failed (c : Config) : Option ConfigCondition :=
  ConfigCondition.all.find? fun k => !c.meets k

/-- Rule R9: a configuration is admitted when it fails no condition. -/
abbrev Config.Admitted (c : Config) : Prop := c.failed = none

end Sys2Proof
end

