-- ==== Sys2Proof/Machine/PowerOn.lean ====
section
/-! DEFINITION. What each device holds at construction (spec/70_reset_and_hazards.md rule R261). -/

namespace Sys2Proof.Machine

/-- Rule R29. -/
def aciaPowerOn : Acia :=
  { control := 0x00#8, status := 0x00#8, hold := 0x00#8, rxq := [], irqLine := false }

/-- Rule R46. The buffer's bytes are unspecified and unobservable there; they are 0x00 here (log
entry 6). The store holds the host file's contents: no byte of it is listed (log entry 7). -/
def idePowerOn (c : Config) : Ide :=
  { error := 0x00#8, features := 0x00#8, seccount := 0x00#8, secnum := 0x00#8, cyllo := 0x00#8
    cylhi := 0x00#8, drvhead := 0x00#8, status := c.ideStatusReset
    buffer := Vector.replicate 512 0x00#8, cursor := 512, store := [], draws := 0 }

/-- Rules R47 and R49. -/
def bankPowerOn (c : Config) : Bank := { bank := 0x00#8, phys := c.memInit }

/-- Rule R51. -/
def dioPowerOn : Dio := { input := 0xFF#8 }

end Sys2Proof.Machine
end

