-- ==== Sys2Proof/Machine/State.lean ====
section
/-! DEFINITION. The state of the core (spec/10_state.md rule R23) as plain data: one record per
device instance, the event trace, the stop mark, and the inputs of the step (rule R54) as data the
step reads. -/

namespace Sys2Proof.Machine

/-- The fault of spec/60_exceptions.md rule R240. -/
inductive Fault where
  /-- `BankOutOfRange(a, bank)`: raised by a CPU-window access whose `PhysOff(a)` reaches `Size`
  (rule R133). The spec itself stops the model there. Safe: no value is given. -/
  | bankOutOfRange (a : U16) (bank : Byte)
  deriving DecidableEq, Repr

/-- The refusals of spec/60_exceptions.md rules R237 (a) and R241, and the model's own. -/
inductive Refusal where
  /-- Answered by exec's arm of an instruction that has no meaning yet. Safe. No arm does. -/
  | notModelled (mnemonic : String)
  /-- `IdeDataWriteUnmodelled(v)`: raised by a data write on a selected IDE controller (rule R203).
  The spec itself refuses it. Safe. -/
  | ideDataWriteUnmodelled (v : Byte)
  /-- `IdeUnlistedCommand(v)`: raised by IDE_CMD_OTHER under the policy `refuse` (rule R211). The
  spec itself refuses it. Safe. -/
  | ideUnlistedCommand (v : Byte)
  /-- `ConfigInvalid(condition)`: raised by construction (rule R238). Safe. -/
  | configInvalid (condition : ConfigCondition)
  /-- Raised by the step on a key that spells no transaction (rule R104). Safe. -/
  | invalidKey (error : KeyError)
  /-- Raised by a device transaction whose instance operand names no device of the board: rule R86
  asks for an instance (log entry 12). Safe. -/
  | noSuchDevice (kind : DeviceKind) (dev : Nat)
  deriving DecidableEq, Repr

/-- The stop mark (rule R53). -/
inductive Stop where
  | running
  | faulted (f : Fault)
  | refused (r : Refusal)
  deriving DecidableEq, Repr

/-- What the last transaction returned to the agent that presented it (log entry 3). -/
inductive Result where
  /-- A write, or no transaction yet: nothing is returned. -/
  | nothing
  /-- The byte of a port read or a memory read. -/
  | byte (v : Byte)
  /-- A device's answer to a device-level read: `some v`, or `none` for no opinion (rule R114). -/
  | opinion (o : Option Byte)
  /-- The Bool of an interrupt query. -/
  | flag (t : Bool)
  /-- A bulk write that succeeded. -/
  | ok
  /-- The caller's buffer as a bulk read leaves it: whole, or up to the byte that faulted (rule
  R143, log entry 17). -/
  | contents (buffer : List Byte)
  /-- A bulk operation whose arguments failed the check (rule R239). -/
  | outOfRange
  /-- A read with a sub-step outstanding (rule R165). -/
  | inFlight
  deriving DecidableEq, Repr

/-- The two agents whose transactions split when `RX_ATOMIC` is false (rule R165). -/
inductive Agent where
  /-- The emulation thread. -/
  | emulation
  /-- The host's receive producer. -/
  | producer
  deriving DecidableEq, Repr

/-- The rest of a port read: the port, the devices not yet read and the accumulator so far. -/
structure BusRest where
  port : U16
  devices : List Installed
  acc : Byte
  deriving DecidableEq, Repr

/-- What a sub-step rd.a leaves to its rd.b (rule R165): the ACIA, the `empty?` it yielded and the
byte it took. -/
structure Taken where
  dev : Nat
  empty : Bool
  value : Byte
  deriving DecidableEq, Repr

/-- What is left of a read of the emulation thread between two of its sub-steps (rule R165). -/
inductive ReadRest where
  /-- Before an rd.b: with the rest of the port read it belongs to, if it belongs to one. -/
  | settle (k : Taken) (bus : Option BusRest)
  /-- After a device's read: the rest of a port read (log entry 10). -/
  | port (b : BusRest)
  deriving DecidableEq, Repr

/-- One input of the step: a transaction, or the choice to run an agent's outstanding sub-step at
this place of the total order (rules R76 and R165). -/
inductive Presented where
  | transaction (t : Transaction)
  | resume (a : Agent)
  deriving DecidableEq, Repr

/-- The state of the core. -/
structure State where
  /-- The configuration: fixed, a parameter of the step (rule R54, log entry 2). -/
  config : Config
  /-- The BankedMemory instance. -/
  bank : Bank
  /-- The ACIA instances, by number. -/
  acias : List Acia
  /-- The IDE instances, by number. -/
  ides : List Ide
  /-- The DigitalIO instances, by number. -/
  dios : List Dio
  /-- The event trace, oldest first (rule R52). -/
  trace : List Event
  /-- The stop mark (rule R53). -/
  stop : Stop
  /-- The model's own: what the last transaction returned (log entry 3). -/
  result : Result
  /-- The model's own: the inputs the agents present, in the total order of rule R76 (log entry 1). -/
  pending : List Presented
  /-- The model's own: the memory hook's coming answers to reads (rule R134, log entry 9). -/
  hookReads : List (Option Byte)
  /-- The model's own: the memory hook's coming answers to writes, true for accepted. -/
  hookWrites : List Bool
  /-- What is left of the emulation thread's read, while a sub-step of it is outstanding (rule
  R165). -/
  emuRest : Option ReadRest
  /-- The producer's outstanding sub-step rx.b: the number of its ACIA (rule R165). -/
  hostRest : Option Nat
  deriving DecidableEq, Repr

/-- The state construction gives for a configuration (spec/70_reset_and_hazards.md rule R261). -/
def State.powerOn (c : Config) : State where
  config := c
  bank := bankPowerOn c
  acias := c.aciaNumbers.map fun _ => aciaPowerOn
  ides := c.ides.map fun _ => idePowerOn c
  dios := c.dioNumbers.map fun _ => dioPowerOn
  trace := []
  stop := .running
  result := .nothing
  pending := []
  hookReads := []
  hookWrites := []
  emuRest := none
  hostRest := none

/-- Construction (rules R9 and R238): a configuration that fails a condition is refused. -/
def State.construct (c : Config) : Host.Outcome State Fault Refusal :=
  match c.failed with
  | none => .next (State.powerOn c)
  | some k => .refused (.configInvalid k)

/-- The state right after power-on: Board B of spec/95_test_vectors.md (log entry 2). -/
def State.reset : State := State.powerOn Config.boardB

end Sys2Proof.Machine
end

