-- ==== Sys2Proof/Machine/Ops.lean ====
section
/-! DEFINITION. The named operations that the transactions are built from: stopping, returning a
value, the trace, the device registers, the memory hook and the CPU window. The core takes no
exception (spec/60_exceptions.md rule R236): what stops it is the fault of rule R240 or a refusal of
rule R241, and each is set by one operation here. -/

namespace Sys2Proof.Machine

/-- What a step answers. -/
abbrev Outcome := Host.Outcome State Fault Refusal

/-! ### Stopping and returning -/

/-- `raise F(info)` (rule R240): the state stays as it is and the stop mark is set. -/
def State.raise (s : State) (f : Fault) : State := { s with stop := .faulted f }

/-- `refuse(reason)` (rule R241). -/
def State.refuse (s : State) (r : Refusal) : State := { s with stop := .refused r }

/-- The outcome a state stands for: the next state while its stop mark is `running`, else the stop
(rule R53). -/
def State.outcome (s : State) : Outcome :=
  match s.stop with
  | .running => .next s
  | .faulted f => .fault f
  | .refused r => .refused r

/-- `return v` (rule R11), kept in the state (log entry 3). -/
def State.returning (s : State) (r : Result) : State := { s with result := r }

/-- A read of the emulation thread stops between two of its sub-steps (rule R165). -/
def State.leaveRest (s : State) (r : ReadRest) : State :=
  { s with emuRest := some r, result := .inFlight }

/-- `emit E(args)` (rule R11). -/
def State.emit (s : State) (e : Event) : State := { s with trace := s.trace ++ [e] }

/-- One transaction: `body` runs from a running state, and a stopped state has no step (rule R53). -/
def State.transact (s : State) (body : State → State) : Outcome :=
  match s.stop with
  | .running => (body s).outcome
  | .faulted f => .fault f
  | .refused r => .refused r

/-! ### Device registers -/

/-- Write the registers of ACIA `n`. -/
def State.putAcia (s : State) (n : Nat) (a : Acia) : State := { s with acias := s.acias.set n a }

/-- Write the registers of IDE controller `n`. -/
def State.putIde (s : State) (n : Nat) (d : Ide) : State := { s with ides := s.ides.set n d }

/-- Write the registers of DigitalIO `n`. -/
def State.putDio (s : State) (n : Nat) (d : Dio) : State := { s with dios := s.dios.set n d }

/-- Write the bank register. -/
def State.putBankNumber (s : State) (b : Byte) : State :=
  { s with bank := { s.bank with bank := b } }

/-- `PhysWrite(o, v)` (rule R11). -/
def State.physWrite (s : State) (o : Nat) (v : Byte) : State :=
  { s with bank := { s.bank with phys := s.bank.phys.write o v } }

/-- `PhysRead(o)` (rule R11). -/
def State.physRead (s : State) (o : Nat) : Byte := s.bank.phys.physRead o

/-- IDE controller `n` with its fixed parameters. -/
def State.ide? (s : State) (n : Nat) : Option (IdeConfig × Ide) :=
  match s.config.ides[n]?, s.ides[n]? with
  | some g, some d => some (g, d)
  | _, _ => none

/-- Byte `o` of the backing store of IDE controller `n` (rule R44). No transaction reads it. -/
def State.storeByte (s : State) (n o : Nat) : Option Byte :=
  match s.ides[n]? with
  | none => none
  | some d =>
    if o < 512 * s.config.ideStoreSectors then
      match d.store.get? o with
      | some b => some b
      | none => some (Config.storeByte n o)
    else none

/-- The board-level interrupt line: the OR over the ACIA instances (rule R248). -/
def State.boardIrq (s : State) : Bool := s.acias.any fun a => a.irqLine

/-! ### What a device's rule answers -/

/-- The result of a device's read rule: an answer (`none` is no opinion, rule R114), or a data read
that stopped after its sub-step rd.a (rule R165). -/
inductive ReadStep where
  | answered (s : State) (o : Option Byte)
  | split (s : State) (k : Taken)

/-! ### The CPU window (spec/41_banked_memory.md rules R131–R134) -/

/-- The hook's answer to a read, if it gives one: the next of its answers, which are inputs of the
step (rule R134). A hook that has no answer left gives none. DESIGN CHOICE (log entry 9), unsafe:
rules R69 and R143 leave a hook's side effects open, and here an answer changes nothing of the core
but that it is taken from the list. -/
def hookRead (s : State) : Option Byte × State :=
  if s.config.memHook then
    match s.hookReads with
    | [] => (none, s)
    | h :: rest => (h, { s with hookReads := rest })
  else (none, s)

/-- Whether the hook accepts a write, likewise (rule R134). DESIGN CHOICE (log entry 9), unsafe: an
answer has no side effect on the core. -/
def hookWrite (s : State) : Bool × State :=
  if s.config.memHook then
    match s.hookWrites with
    | [] => (false, s)
    | h :: rest => (h, { s with hookWrites := rest })
  else (false, s)

/-- `MemRead(a, 1)` (rules R131 and R133): the state reached, and the byte or the fault. -/
def cpuRead (s : State) (a : U16) : State × Except Fault Byte :=
  match hookRead s with
  | (some h, t) => (t, .ok h)
  | (none, t) =>
    if physOff t.config t.bank.bank a < t.config.size then
      (t, .ok (t.physRead (physOff t.config t.bank.bank a)))
    else (t, .error (.bankOutOfRange a t.bank.bank))

/-- `MemWrite(a, 1, v)` (rules R132 and R133): the state reached, and the fault if there is one. -/
def cpuWrite (s : State) (a : U16) (v : Byte) : State × Option Fault :=
  match hookWrite s with
  | (true, t) => (t, none)
  | (false, t) =>
    if physOff t.config t.bank.bank a < t.config.size then
      (t.physWrite (physOff t.config t.bank.bank a) v, none)
    else (t, some (.bankOutOfRange a t.bank.bank))

/-- The byte steps of a bulk write from address `a` on: the state reached, and the fault of the
first byte that raised one; the bytes before it stay written (rule R142). -/
def storeBytes (s : State) (a : Nat) : List Byte → State × Option Fault
  | [] => (s, none)
  | b :: bs =>
    match cpuWrite s (BitVec.ofNat 16 a) b with
    | (t, none) => storeBytes t (a + 1) bs
    | (t, some f) => (t, some f)

/-- The byte steps of a bulk read of `n` bytes from address `a` on (rule R143): the state reached,
the bytes read, and the fault of the first byte that raised one. -/
def fetchBytes (s : State) (a : Nat) : Nat → State × List Byte × Option Fault
  | 0 => (s, [], none)
  | n + 1 =>
    match cpuRead s (BitVec.ofNat 16 a) with
    | (t, .error f) => (t, [], some f)
    | (t, .ok b) =>
      match fetchBytes t (a + 1) n with
      | (u, bs, f) => (u, b :: bs, f)

end Sys2Proof.Machine
end

