-- ==== Sys2Proof/Machine/Acia.lean ====
section
/-! DEFINITION. The ACIA's register rules (spec/42_acia.md). The transactions that call them stand in
ExecAcia.lean and ExecSide.lean, the port bus in Bus.lean. -/

namespace Sys2Proof.Machine

/-! ### One ACIA's registers -/

/-- R154. -/
def aciaConfigure (v : Byte) (a : Acia) : Acia :=
  { a with control := v, status := setBits a.status tdre }

/-- R155; `clears` is `ACIA_MR_CLEARS_IRQ_LINE`. -/
def aciaMasterReset (clears : Bool) (v : Byte) (a : Acia) : Acia :=
  { a with control := v, status := 0x00#8, irqLine := if clears then false else a.irqLine }

/-- R156, the flag. -/
def aciaTransmit (a : Acia) : Acia := { a with status := setBits a.status tdre }

/-- Sub-step rd.a of R165, from a queue `b :: q`: the head moves into the holding register. -/
def aciaTake (b : Byte) (q : List Byte) (a : Acia) : Acia := { a with hold := b, rxq := q }

/-- Sub-step rd.b of R165: the flags of R159. -/
def aciaSettleRead (empty : Bool) (a : Acia) : Acia :=
  { a with
    status := statusAfterDataRead empty (rie a.control) a.status
    irqLine := lineAfterDataRead empty (rie a.control) a.irqLine }

/-- R158, the case of a queue `b :: q`, whole. -/
def aciaReadHead (b : Byte) (q : List Byte) (a : Acia) : Acia :=
  aciaSettleRead q.isEmpty (aciaTake b q a)

/-- Sub-step rx.a of R165: `enqueue` (R152). -/
def aciaEnqueue (b : Byte) (a : Acia) : Acia := { a with rxq := a.rxq ++ [b] }

/-- Sub-step rx.b of R165: the flags of R161. -/
def aciaSettleReceive (a : Acia) : Acia :=
  { a with
    status := statusAfterReceive (rie a.control) a.status
    irqLine := lineAfterReceive (rie a.control) a.irqLine }

/-- R161, whole. -/
def aciaReceive (b : Byte) (a : Acia) : Acia := aciaSettleReceive (aciaEnqueue b a)

/-! ### The rules on the state -/

/-- Write an ACIA's registers through `f`; an operand that names no ACIA is refused. -/
def State.withAcia (s : State) (dev : Nat) (f : Acia → Acia) : Except Refusal State :=
  match s.acias[dev]? with
  | some a => .ok (s.putAcia dev (f a))
  | none => .error (.noSuchDevice .acia dev)

/-- Write an ACIA's registers through `f`, if there is that ACIA. -/
def State.updateAcia (s : State) (dev : Nat) (f : Acia → Acia) : State :=
  match s.acias[dev]? with
  | some a => s.putAcia dev (f a)
  | none => s

/-- R155. -/
def writeAciaMasterReset (dev : Nat) (v : Byte) (s : State) : Except Refusal State :=
  s.withAcia dev (aciaMasterReset s.config.aciaMrClearsIrqLine v)

/-- R154. -/
def writeAciaConfigure (dev : Nat) (v : Byte) (s : State) : Except Refusal State :=
  s.withAcia dev (aciaConfigure v)

/-- R156: the event first, then TDRE. -/
def writeAciaData (dev : Nat) (v : Byte) (s : State) : Except Refusal State :=
  (s.emit (.txByte dev v)).withAcia dev aciaTransmit

/-- R157. -/
def readAciaStatus (dev : Nat) (s : State) : Except Refusal ReadStep :=
  match s.acias[dev]? with
  | some a => .ok (.answered s (some a.status))
  | none => .error (.noSuchDevice .acia dev)

/-- R158–R160; when `atomic` is false a read of a non-empty queue stops after its sub-step rd.a
(R165). -/
def readAciaData (atomic : Bool) (dev : Nat) (s : State) : Except Refusal ReadStep :=
  match s.acias[dev]? with
  | none => .error (.noSuchDevice .acia dev)
  | some a =>
    match a.rxq with
    | [] => .ok (.answered s (some a.hold))
    | b :: q =>
      if atomic then .ok (.answered (s.putAcia dev (aciaReadHead b q a)) (some b))
      else .ok (.split (s.putAcia dev (aciaTake b q a)) ⟨dev, q.isEmpty, b⟩)

end Sys2Proof.Machine
end

