-- ==== Sys2Proof/Machine/Dio.lean ====
section
/-! DEFINITION. The DigitalIO's rules (spec/44_digital_io.md). -/

namespace Sys2Proof.Machine

/-- R226. -/
def readDio (dev : Nat) (s : State) : Except Refusal ReadStep :=
  match s.dios[dev]? with
  | some d => .ok (.answered s (some d.input))
  | none => .error (.noSuchDevice .dio dev)

/-- R227: the event; the latch stays (R228). -/
def writeDio (dev : Nat) (v : Byte) (s : State) : Except Refusal State :=
  match s.dios[dev]? with
  | some _ => .ok (s.emit (.dioOut dev v))
  | none => .error (.noSuchDevice .dio dev)

/-- R229. -/
def setDioInput (dev : Nat) (v : Byte) (s : State) : Except Refusal State :=
  match s.dios[dev]? with
  | some d => .ok (s.putDio dev { d with input := v })
  | none => .error (.noSuchDevice .dio dev)

end Sys2Proof.Machine
end

