-- ==== Sys2Proof/Machine/Ide.lean ====
section
/-! DEFINITION. The IDE controller's register rules and its command state machine
(spec/43_ide.md). The transactions that call them stand in ExecIde.lean, the port bus in
Bus.lean. -/

namespace Sys2Proof.Machine

/-! ### Command bodies (rules R205–R212) -/

/-- R208: the body of IDENTIFY DEVICE. -/
def ideIdentifyBody (c : Config) (g : IdeConfig) (d : Ide) : Ide :=
  { d with buffer := identifyBlock c g, status := statusIdentified, cursor := 0 }

/-- What R210 and R211 do on an error: ERR in the status, ABRT in the error register. -/
def ideAbort (d : Ide) : Ide := { d with status := setBits d.status err, error := abrt }

/-- R210: the body of SET FEATURES. -/
def ideSetFeaturesBody (d : Ide) : Ide := if featureAccepted d.features then d else ideAbort d

/-- R212: the end of dispatch, the double-clear. -/
def ideEndOfDispatch (d : Ide) : Ide :=
  { d with status := clearBits d.status df, error := 0x00#8 }

/-! ### The drive-select gate (rules R181–R183) -/

/-- A read of a plain register: its value when the drive is selected, else 0xFF; no state changes. -/
def readIdeRegister (register : Ide → Byte) (dev : Nat) (s : State) : Except Refusal ReadStep :=
  match s.ide? dev with
  | none => .error (.noSuchDevice .ide dev)
  | some (g, d) =>
    if driveSelected d.drvhead g.driveIndex then .ok (.answered s (some (register d)))
    else .ok (.answered s (some 0xFF#8))

/-- A gated write: `f` on the registers when the drive is selected, else the write is dropped. -/
def writeIdeGated (f : IdeConfig → Ide → Ide) (dev : Nat) (s : State) : Except Refusal State :=
  match s.ide? dev with
  | none => .error (.noSuchDevice .ide dev)
  | some (g, d) =>
    if driveSelected d.drvhead g.driveIndex then .ok (s.putIde dev (f g d)) else .ok s

/-! ### Reads -/

/-- R201. A read past the buffer end draws its value: free, and only the model's own count of draws
moves. -/
def readIdeData (dev : Nat) (s : State) : Except Refusal ReadStep :=
  match s.ide? dev with
  | none => .error (.noSuchDevice .ide dev)
  | some (g, d) =>
    if driveSelected d.drvhead g.driveIndex then
      if h : d.cursor < 512 then
        .ok (.answered
          (s.putIde dev { d with
            cursor := d.cursor + 1, status := statusAfterSectorRead (d.cursor + 1) d.status })
          (some d.buffer[d.cursor]))
      else
        .ok (.answered (s.putIde dev { d with draws := d.draws + 1 })
          (some (Config.draw dev d.draws)))
    else .ok (.answered s (some 0xFF#8))

/-- R185. -/
def readIdeError (dev : Nat) (s : State) : Except Refusal ReadStep :=
  readIdeRegister Ide.error dev s

/-- R187. -/
def readIdeSeccnt (dev : Nat) (s : State) : Except Refusal ReadStep :=
  readIdeRegister Ide.seccount dev s

/-- R189. -/
def readIdeSecnum (dev : Nat) (s : State) : Except Refusal ReadStep :=
  readIdeRegister Ide.secnum dev s

/-- R191. -/
def readIdeCyllo (dev : Nat) (s : State) : Except Refusal ReadStep :=
  readIdeRegister Ide.cyllo dev s

/-- R193. -/
def readIdeCylhi (dev : Nat) (s : State) : Except Refusal ReadStep :=
  readIdeRegister Ide.cylhi dev s

/-- R195. -/
def readIdeDrvhead (dev : Nat) (s : State) : Except Refusal ReadStep :=
  readIdeRegister Ide.drvhead dev s

/-- R197. -/
def readIdeStatus (dev : Nat) (s : State) : Except Refusal ReadStep :=
  readIdeRegister Ide.status dev s

/-! ### Writes -/

/-- R203: refused on a selected drive, dropped on another. -/
def writeIdeData (dev : Nat) (v : Byte) (s : State) : Except Refusal State :=
  match s.ide? dev with
  | none => .error (.noSuchDevice .ide dev)
  | some (g, d) =>
    if driveSelected d.drvhead g.driveIndex then
      match s.config.ideDataWrite with
      | .refuse => .error (.ideDataWriteUnmodelled v)
    else .ok s

/-- R186. -/
def writeIdeFeatures (dev : Nat) (v : Byte) (s : State) : Except Refusal State :=
  writeIdeGated (fun _ d => { d with features := v }) dev s

/-- R188. -/
def writeIdeSeccnt (dev : Nat) (v : Byte) (s : State) : Except Refusal State :=
  writeIdeGated (fun _ d => { d with seccount := v }) dev s

/-- R190. -/
def writeIdeSecnum (dev : Nat) (v : Byte) (s : State) : Except Refusal State :=
  writeIdeGated (fun _ d => { d with secnum := v }) dev s

/-- R192. -/
def writeIdeCyllo (dev : Nat) (v : Byte) (s : State) : Except Refusal State :=
  writeIdeGated (fun _ d => { d with cyllo := v }) dev s

/-- R194. -/
def writeIdeCylhi (dev : Nat) (v : Byte) (s : State) : Except Refusal State :=
  writeIdeGated (fun _ d => { d with cylhi := v }) dev s

/-- R196: always stored, selected or not. -/
def writeIdeDrvhead (dev : Nat) (v : Byte) (s : State) : Except Refusal State :=
  match s.ide? dev with
  | none => .error (.noSuchDevice .ide dev)
  | some (_, d) => .ok (s.putIde dev { d with drvhead := v })

/-! ### Commands (rule R205) -/

/-- R208 with R212. -/
def ideIdentify (dev : Nat) (s : State) : Except Refusal State :=
  writeIdeGated (fun g d => ideEndOfDispatch (ideIdentifyBody s.config g d)) dev s

/-- R210 with R212. -/
def ideSetFeatures (dev : Nat) (s : State) : Except Refusal State :=
  writeIdeGated (fun _ d => ideEndOfDispatch (ideSetFeaturesBody d)) dev s

/-- R211 with R212; under the policy `refuse` a selected drive refuses every code but 0x00. -/
def ideUnrecognized (dev : Nat) (v : Byte) (s : State) : Except Refusal State :=
  match s.ide? dev with
  | none => .error (.noSuchDevice .ide dev)
  | some (g, d) =>
    if driveSelected d.drvhead g.driveIndex then
      if s.config.ideUnlistedCmd = .refuse ∧ v ≠ 0x00#8 then .error (.ideUnlistedCommand v)
      else .ok (s.putIde dev (ideEndOfDispatch (ideAbort d)))
    else .ok s

end Sys2Proof.Machine
end

