-- ==== Sys2Proof/Machine/Bus.lean ====
section
/-! DEFINITION. The port bus (spec/40_port_bus.md): each matched device runs the rule of its offset,
reads are ANDed, writes fan out, in installed order. The agents' outstanding sub-steps (rule R165 of
spec/42_acia.md) stand here too, since the rest of a split read may be the rest of a port read. -/

namespace Sys2Proof.Machine

/-! ### BankedMemory's own port (spec/41_banked_memory.md) -/

/-- R128: no opinion. -/
def readBank (s : State) : Except Refusal ReadStep := .ok (.answered s none)

/-- R127. -/
def writeBank (v : Byte) (s : State) : Except Refusal State := .ok (s.putBankNumber (bankNumber v))

/-! ### The rule of a device's offset (rules R91, R94, R98 and R100 of spec/30_encoding.md) -/

/-- The IDE read rule of an offset (R94). -/
def ideReadAt (off dev : Nat) (s : State) : Except Refusal ReadStep :=
  match off with
  | 0 => readIdeData dev s
  | 1 => readIdeError dev s
  | 2 => readIdeSeccnt dev s
  | 3 => readIdeSecnum dev s
  | 4 => readIdeCyllo dev s
  | 5 => readIdeCylhi dev s
  | 6 => readIdeDrvhead dev s
  | 7 => readIdeStatus dev s
  | _ => .ok (.answered s none)

/-- R205: the command a write of `v` to offset 7 runs. -/
def ideCommand (dev : Nat) (v : Byte) (s : State) : Except Refusal State :=
  if v = 0xEC#8 then ideIdentify dev s
  else if v = 0xEF#8 then ideSetFeatures dev s
  else ideUnrecognized dev v s

/-- The IDE write rule of an offset (R94). -/
def ideWriteAt (off dev : Nat) (v : Byte) (s : State) : Except Refusal State :=
  match off with
  | 0 => writeIdeData dev v s
  | 1 => writeIdeFeatures dev v s
  | 2 => writeIdeSeccnt dev v s
  | 3 => writeIdeSecnum dev v s
  | 4 => writeIdeCyllo dev v s
  | 5 => writeIdeCylhi dev v s
  | 6 => writeIdeDrvhead dev v s
  | 7 => ideCommand dev v s
  | _ => .ok s

/-- The ACIA read rule of an offset (R91). -/
def aciaReadAt (atomic : Bool) (off dev : Nat) (s : State) : Except Refusal ReadStep :=
  match off with
  | 0 => readAciaStatus dev s
  | 1 => readAciaData atomic dev s
  | _ => .ok (.answered s none)

/-- R153: a control write takes the master-reset path or the configure path. -/
def writeAciaControl (dev : Nat) (v : Byte) (s : State) : Except Refusal State :=
  if isMasterReset v then writeAciaMasterReset dev v s else writeAciaConfigure dev v s

/-- The ACIA write rule of an offset (R91). -/
def aciaWriteAt (off dev : Nat) (v : Byte) (s : State) : Except Refusal State :=
  match off with
  | 0 => writeAciaControl dev v s
  | 1 => writeAciaData dev v s
  | _ => .ok s

/-- R114: a device's read of a matched offset. -/
def deviceRead (atomic : Bool) (d : DeviceRef) (off : Nat) (s : State) : Except Refusal ReadStep :=
  match d with
  | .bank => readBank s
  | .acia n => aciaReadAt atomic off n s
  | .ide n => ideReadAt off n s
  | .dio n => readDio n s

/-- R88: a device's write of a matched offset. -/
def deviceWrite (d : DeviceRef) (off : Nat) (v : Byte) (s : State) : Except Refusal State :=
  match d with
  | .bank => writeBank v s
  | .acia n => aciaWriteAt off n v s
  | .ide n => ideWriteAt off n v s
  | .dio n => writeDio n v s

/-! ### The bus transactions -/

/-- Whether a device not yet read recognizes the port. -/
def BusRest.matchesMore (c : Config) (b : BusRest) : Bool :=
  b.devices.any fun d => (matchPort c d b.port).isSome

/-- R165: whether a read of port `p` runs in steps. With `RX_ATOMIC` none does; without it one that
reaches an ACIA's data register does, and another port read stays one step (R7). -/
def splitsRead (c : Config) (p : U16) : Bool :=
  !c.rxAtomic && c.devices.any fun d => kindOf d.dev == .acia && matchPort c d p == some 1

/-- R113: the loop over the devices not yet read, with the accumulator so far. Unless it is `atomic`
it stops after each device's read while a matching device is left, and after a data read's sub-step
rd.a, so that the producer's sub-steps can stand in each of these places (R165, log entry 10). An
entry that names no device answers nothing (log entry 21). -/
def busReadFrom (atomic : Bool) (p : U16) : List Installed → Byte → State → State
  | [], acc, s => s.returning (.byte acc)
  | d :: ds, acc, s =>
    match matchPort s.config d p with
    | none => busReadFrom atomic p ds acc s
    | some off =>
      match deviceRead atomic d.dev off s with
      | .error _ => busReadFrom atomic p ds acc s
      | .ok (.answered t o) =>
        if !atomic && BusRest.matchesMore s.config ⟨p, ds, acc⟩ then
          t.leaveRest (.port ⟨p, ds, acc &&& o.getD 0xFF#8⟩)
        else busReadFrom atomic p ds (acc &&& o.getD 0xFF#8) t
      | .ok (.split t k) => t.leaveRest (.settle k (some ⟨p, ds, acc⟩))

/-- R115: the fan-out of a port write. A refusal of one device refuses the transaction. -/
def busWriteFrom (p : U16) (v : Byte) : List Installed → State → Except Refusal State
  | [], s => .ok s
  | d :: ds, s =>
    match matchPort s.config d p with
    | none => busWriteFrom p v ds s
    | some off =>
      match deviceWrite d.dev off v s with
      | .error r => .error r
      | .ok t => busWriteFrom p v ds t

/-! ### Outstanding sub-steps (rule R165) -/

/-- The sub-step rd.b. -/
def State.settleRead (s : State) (k : Taken) : State :=
  { s with emuRest := none }.updateAcia k.dev (aciaSettleRead k.empty)

/-- The rest of a port read, from its next device on. -/
def resumePort (atomic : Bool) (b : BusRest) (s : State) : State :=
  busReadFrom atomic b.port b.devices b.acc s

/-- The next sub-steps of a split read. An rd.b ends a device-level read; in a port read with
devices left it is a step of its own, and the rest is left outstanding (R165, log entry 10). With
`atomic` the read runs to its end. -/
def resumeRead (atomic : Bool) (r : ReadRest) (s : State) : State :=
  match r with
  | .port b => resumePort atomic b { s with emuRest := none }
  | .settle k none => (s.settleRead k).returning (.opinion (some k.value))
  | .settle k (some b) =>
    if !atomic && b.matchesMore s.config then
      (s.settleRead k).leaveRest (.port { b with acc := b.acc &&& k.value })
    else resumePort atomic { b with acc := b.acc &&& k.value } (s.settleRead k)

/-- The emulation thread's outstanding sub-step, if it has one, to the end of its transaction: its
own transactions come in program order. -/
def State.finishRead (s : State) : State :=
  match s.emuRest with
  | none => s
  | some r => resumeRead true r s

/-- The producer's outstanding sub-step rx.b, if it has one. -/
def State.finishReceive (s : State) : State :=
  match s.hostRest with
  | none => s
  | some dev => { s with hostRest := none }.updateAcia dev aciaSettleReceive

/-- One outstanding sub-step of an agent, at this place of the total order; an agent that has none
does nothing. -/
def resumeAgent (a : Agent) (s : State) : State :=
  match a with
  | .producer => s.finishReceive
  | .emulation =>
    match s.emuRest with
    | none => s
    | some r => resumeRead s.config.rxAtomic r s

/-! ### How the emulation thread's transactions run -/

/-- A transaction of the emulation thread: its own outstanding sub-step comes first. -/
def State.emulation (s : State) (body : State → State) : Outcome :=
  s.transact fun t => body t.finishRead

/-- A device-level read transaction: the answer is returned, or the read stops at its rd.a. -/
def State.performRead (s : State) (rule : State → Except Refusal ReadStep) : Outcome :=
  s.emulation fun t =>
    match rule t with
    | .error r => t.refuse r
    | .ok (.answered u o) => u.returning (.opinion o)
    | .ok (.split u k) => u.leaveRest (.settle k none)

/-- What a write rule leaves: the written state, or the refusal with no effect (rule R241). -/
def State.settleWrite (s : State) (w : Except Refusal State) : State :=
  match w with
  | .error r => s.refuse r
  | .ok t => t.returning .nothing

/-- A write transaction of the emulation thread. -/
def State.performWrite (s : State) (rule : State → Except Refusal State) : Outcome :=
  s.emulation fun t => t.settleWrite (rule t)

end Sys2Proof.Machine
end

