-- ==== Sys2Proof/Machine/ExecAcia.lean ====
section
/-! DEFINITION. The ACIA's port transactions (spec/42_acia.md sections 2 and 3). -/

namespace Sys2Proof.Machine

/-- ACIA_WR_CTRL_MR (R155). -/
def execAciaWrCtrlMr (dev : Nat) (v : Byte) (s : State) : Outcome :=
  s.performWrite (writeAciaMasterReset dev v)

/-- ACIA_WR_CTRL (R154). -/
def execAciaWrCtrl (dev : Nat) (v : Byte) (s : State) : Outcome :=
  s.performWrite (writeAciaConfigure dev v)

/-- ACIA_WR_DATA (R156). -/
def execAciaWrData (dev : Nat) (v : Byte) (s : State) : Outcome :=
  s.performWrite (writeAciaData dev v)

/-- ACIA_RD_STATUS (R157). -/
def execAciaRdStatus (dev : Nat) (s : State) : Outcome := s.performRead (readAciaStatus dev)

/-- ACIA_RD_DATA (R158, R165). -/
def execAciaRdData (dev : Nat) (s : State) : Outcome :=
  s.performRead fun t => readAciaData t.config.rxAtomic dev t

end Sys2Proof.Machine
end

