-- ==== Sys2Proof/Machine/ExecBus.lean ====
section
/-! DEFINITION. The bus transactions and BankedMemory's register (spec/40_port_bus.md,
spec/41_banked_memory.md section 1). -/

namespace Sys2Proof.Machine

/-- BUS_READ (R113). -/
def execBusRead (port : U16) (s : State) : Outcome :=
  s.emulation fun t => busReadFrom (!splitsRead t.config port) port t.config.devices 0xFF#8 t

/-- BUS_WRITE (R115). -/
def execBusWrite (port : U16) (v : Byte) (s : State) : Outcome :=
  s.performWrite fun t => busWriteFrom port v t.config.devices t

/-- BANK_WR_SELECT (R127). -/
def execBankWrSelect (v : Byte) (s : State) : Outcome := s.performWrite (writeBank v)

/-- BANK_RD (R128). -/
def execBankRd (s : State) : Outcome := s.performRead readBank

end Sys2Proof.Machine
end

