-- ==== Sys2Proof/Machine/ExecIde.lean ====
section
/-! DEFINITION. The IDE controller's transactions (spec/43_ide.md). -/

namespace Sys2Proof.Machine

/-- IDE_RD_DATA (R201). -/
def execIdeRdData (dev : Nat) (s : State) : Outcome := s.performRead (readIdeData dev)

/-- IDE_RD_ERROR (R185). -/
def execIdeRdError (dev : Nat) (s : State) : Outcome := s.performRead (readIdeError dev)

/-- IDE_RD_SECCNT (R187). -/
def execIdeRdSeccnt (dev : Nat) (s : State) : Outcome := s.performRead (readIdeSeccnt dev)

/-- IDE_RD_SECNUM (R189). -/
def execIdeRdSecnum (dev : Nat) (s : State) : Outcome := s.performRead (readIdeSecnum dev)

/-- IDE_RD_CYLLO (R191). -/
def execIdeRdCyllo (dev : Nat) (s : State) : Outcome := s.performRead (readIdeCyllo dev)

/-- IDE_RD_CYLHI (R193). -/
def execIdeRdCylhi (dev : Nat) (s : State) : Outcome := s.performRead (readIdeCylhi dev)

/-- IDE_RD_DRVHEAD (R195). -/
def execIdeRdDrvhead (dev : Nat) (s : State) : Outcome := s.performRead (readIdeDrvhead dev)

/-- IDE_RD_STATUS (R197). -/
def execIdeRdStatus (dev : Nat) (s : State) : Outcome := s.performRead (readIdeStatus dev)

/-- IDE_WR_DATA (R203). -/
def execIdeWrData (dev : Nat) (v : Byte) (s : State) : Outcome := s.performWrite (writeIdeData dev v)

/-- IDE_WR_FEATURES (R186). -/
def execIdeWrFeatures (dev : Nat) (v : Byte) (s : State) : Outcome := s.performWrite (writeIdeFeatures dev v)

/-- IDE_WR_SECCNT (R188). -/
def execIdeWrSeccnt (dev : Nat) (v : Byte) (s : State) : Outcome := s.performWrite (writeIdeSeccnt dev v)

/-- IDE_WR_SECNUM (R190). -/
def execIdeWrSecnum (dev : Nat) (v : Byte) (s : State) : Outcome := s.performWrite (writeIdeSecnum dev v)

/-- IDE_WR_CYLLO (R192). -/
def execIdeWrCyllo (dev : Nat) (v : Byte) (s : State) : Outcome := s.performWrite (writeIdeCyllo dev v)

/-- IDE_WR_CYLHI (R194). -/
def execIdeWrCylhi (dev : Nat) (v : Byte) (s : State) : Outcome := s.performWrite (writeIdeCylhi dev v)

/-- IDE_WR_DRVHEAD (R196). -/
def execIdeWrDrvhead (dev : Nat) (v : Byte) (s : State) : Outcome := s.performWrite (writeIdeDrvhead dev v)

/-- IDE_CMD_IDENTIFY (R208). -/
def execIdeCmdIdentify (dev : Nat) (s : State) : Outcome := s.performWrite (ideIdentify dev)

/-- IDE_CMD_SET_FEATURES (R210). -/
def execIdeCmdSetFeatures (dev : Nat) (s : State) : Outcome := s.performWrite (ideSetFeatures dev)

/-- IDE_CMD_OTHER (R211). -/
def execIdeCmdOther (dev : Nat) (v : Byte) (s : State) : Outcome :=
  s.performWrite (ideUnrecognized dev v)

end Sys2Proof.Machine
end

