-- ==== Sys2Proof/Machine/ExecMem.lean ====
section
/-! DEFINITION. The CPU memory window's transactions (spec/41_banked_memory.md sections 3 and 5). -/

namespace Sys2Proof.Machine

/-- MEM_READ (R131). -/
def execMemRead (addr : U16) (s : State) : Outcome :=
  s.emulation fun t =>
    match cpuRead t addr with
    | (u, .ok b) => u.returning (.byte b)
    | (u, .error f) => u.raise f

/-- MEM_WRITE (R132). -/
def execMemWrite (addr : U16) (v : Byte) (s : State) : Outcome :=
  s.emulation fun t =>
    match cpuWrite t addr v with
    | (u, none) => u.returning .nothing
    | (u, some f) => u.raise f

/-- R142: the state `SetContents` leaves, whether it completes, fails its check or stops at a byte. -/
def setContents (startAddress : Int) (buffer : List Byte) (startIndex length : Int) (s : State) :
    State :=
  if bulkCheckFails startAddress buffer startIndex length then s.returning .outOfRange
  else
    match storeBytes s startAddress.toNat (bulkSlice buffer startIndex length) with
    | (t, none) => t.returning .ok
    | (t, some f) => t.raise f

/-- R143: the state `GetContents` leaves. The caller's buffer is what it returns, with the bytes
before a faulting one in place (exceptions as rule R142). -/
def getContents (startAddress : Int) (buffer : List Byte) (startIndex length : Int) (s : State) :
    State :=
  if bulkCheckFails startAddress buffer startIndex length then s.returning .outOfRange
  else
    match fetchBytes s startAddress.toNat length.toNat with
    | (t, bs, none) => t.returning (.contents (bulkFill buffer startIndex bs))
    | (t, bs, some f) => (t.returning (.contents (bulkFill buffer startIndex bs))).raise f

/-- MEM_GET_CONTENTS (R143). -/
def execMemGetContents (startAddress : Int) (buffer : List Byte) (startIndex length : Int)
    (s : State) : Outcome :=
  s.emulation (getContents startAddress buffer startIndex length)

/-- MEM_SET_CONTENTS (R142). -/
def execMemSetContents (startAddress : Int) (buffer : List Byte) (startIndex length : Int)
    (s : State) : Outcome :=
  s.emulation (setContents startAddress buffer startIndex length)

end Sys2Proof.Machine
end

