-- ==== Sys2Proof/Machine/ExecSide.lean ====
section
/-! DEFINITION. The DigitalIO's transactions and the sideband (spec/44_digital_io.md,
spec/42_acia.md section 4). -/

namespace Sys2Proof.Machine

/-- DIO_RD (R226). -/
def execDioRd (dev : Nat) (s : State) : Outcome := s.performRead (readDio dev)

/-- DIO_WR (R227). -/
def execDioWr (dev : Nat) (v : Byte) (s : State) : Outcome := s.performWrite (writeDio dev v)

/-- R161: the byte is received whole, or, when `RX_ATOMIC` is false, its sub-step rx.a runs and rx.b
is left outstanding (R165). -/
def receive (dev : Nat) (v : Byte) (s : State) : State :=
  if s.config.rxAtomic then s.settleWrite (s.withAcia dev (aciaReceive v))
  else s.settleWrite ({ s with hostRest := some dev }.withAcia dev (aciaEnqueue v))

/-- RX_DATA (R161), a transaction of the producer: its own outstanding sub-step comes first. -/
def execRxData (dev : Nat) (v : Byte) (s : State) : Outcome :=
  s.transact fun t => receive dev v t.finishReceive

/-- IRQ_QUERY (R162). -/
def execIrqQuery (dev : Nat) (s : State) : Outcome :=
  s.emulation fun t =>
    match t.acias[dev]? with
    | some a => t.returning (.flag a.irqLine)
    | none => t.refuse (.noSuchDevice .acia dev)

/-- DIO_SET_INPUT (R229), one atomic step of the host between two transactions of the emulation
thread: of the agents only the producer runs beside that thread (R7), so an outstanding sub-step of a
read comes first (log entry 18). -/
def execDioSetInput (dev : Nat) (v : Byte) (s : State) : Outcome :=
  s.performWrite (setDioInput dev v)

end Sys2Proof.Machine
end

