-- ==== Sys2Proof/Machine/Dispatch.lean ====
section
/-! DEFINITION. The meaning of every transaction: one arm per constructor of `Instr`. -/

namespace Sys2Proof.Machine

def exec (i : Instr) (s : State) : Host.Outcome State Fault Refusal :=
  match i with
  | .busRead port => Sys2Proof.Machine.execBusRead port s
  | .busWrite port v => Sys2Proof.Machine.execBusWrite port v s
  | .bankWrSelect v => Sys2Proof.Machine.execBankWrSelect v s
  | .bankRd => Sys2Proof.Machine.execBankRd s
  | .aciaWrCtrlMr dev v => Sys2Proof.Machine.execAciaWrCtrlMr dev v s
  | .aciaWrCtrl dev v => Sys2Proof.Machine.execAciaWrCtrl dev v s
  | .aciaWrData dev v => Sys2Proof.Machine.execAciaWrData dev v s
  | .aciaRdStatus dev => Sys2Proof.Machine.execAciaRdStatus dev s
  | .aciaRdData dev => Sys2Proof.Machine.execAciaRdData dev s
  | .ideRdData dev => Sys2Proof.Machine.execIdeRdData dev s
  | .ideRdError dev => Sys2Proof.Machine.execIdeRdError dev s
  | .ideRdSeccnt dev => Sys2Proof.Machine.execIdeRdSeccnt dev s
  | .ideRdSecnum dev => Sys2Proof.Machine.execIdeRdSecnum dev s
  | .ideRdCyllo dev => Sys2Proof.Machine.execIdeRdCyllo dev s
  | .ideRdCylhi dev => Sys2Proof.Machine.execIdeRdCylhi dev s
  | .ideRdDrvhead dev => Sys2Proof.Machine.execIdeRdDrvhead dev s
  | .ideRdStatus dev => Sys2Proof.Machine.execIdeRdStatus dev s
  | .ideWrData dev v => Sys2Proof.Machine.execIdeWrData dev v s
  | .ideWrFeatures dev v => Sys2Proof.Machine.execIdeWrFeatures dev v s
  | .ideWrSeccnt dev v => Sys2Proof.Machine.execIdeWrSeccnt dev v s
  | .ideWrSecnum dev v => Sys2Proof.Machine.execIdeWrSecnum dev v s
  | .ideWrCyllo dev v => Sys2Proof.Machine.execIdeWrCyllo dev v s
  | .ideWrCylhi dev v => Sys2Proof.Machine.execIdeWrCylhi dev v s
  | .ideWrDrvhead dev v => Sys2Proof.Machine.execIdeWrDrvhead dev v s
  | .ideCmdIdentify dev => Sys2Proof.Machine.execIdeCmdIdentify dev s
  | .ideCmdSetFeatures dev => Sys2Proof.Machine.execIdeCmdSetFeatures dev s
  | .ideCmdOther dev v => Sys2Proof.Machine.execIdeCmdOther dev v s
  | .dioRd dev => Sys2Proof.Machine.execDioRd dev s
  | .dioWr dev v => Sys2Proof.Machine.execDioWr dev v s
  | .memRead addr => Sys2Proof.Machine.execMemRead addr s
  | .memWrite addr v => Sys2Proof.Machine.execMemWrite addr v s
  | .memGetContents startAddress buffer startIndex length => Sys2Proof.Machine.execMemGetContents startAddress buffer startIndex length s
  | .memSetContents startAddress buffer startIndex length => Sys2Proof.Machine.execMemSetContents startAddress buffer startIndex length s
  | .rxData dev v => Sys2Proof.Machine.execRxData dev v s
  | .irqQuery dev => Sys2Proof.Machine.execIrqQuery dev s
  | .dioSetInput dev v => Sys2Proof.Machine.execDioSetInput dev v s

end Sys2Proof.Machine
end

