-- ==== Sys2Proof/Machine/Input.lean ====
section
/-! DEFINITION. How a transaction comes to the core: the agents' inputs in their total order
(spec/20_memory.md rule R76, log entry 1). -/

namespace Sys2Proof.Machine

/-- The next input and the state that has taken it. -/
def State.takeInput (s : State) : Option (Presented × State) :=
  match s.pending with
  | [] => none
  | x :: rest => some (x, { s with pending := rest })

/-- A running state whose next input is `x`. -/
def State.present (s : State) (x : Presented) : State :=
  { s with pending := x :: s.pending, stop := .running }

/-- The state whose next input is the transaction a word of the opcode table spells, every operand
beside its key zero; a word that spells no transaction places nothing. -/
def State.presentWord (s : State) (nbits w : Nat) : State :=
  match tableTransaction nbits w with
  | some t => s.present (.transaction t)
  | none => s

end Sys2Proof.Machine
end

