-- ==== Sys2Proof/Machine/Step.lean ====
section
/-! DEFINITION. One step: the next input, decoded and run. A stopped state has no step
(spec/10_state.md rule R53). -/

namespace Sys2Proof.Machine

/-- One step. With no input presented nothing happens: the core acts only on transactions (rule
R21). A key that spells no transaction is refused by name (rule R104). -/
def step (s : State) : Host.Outcome State Fault Refusal :=
  match s.stop with
  | .faulted f => .fault f
  | .refused r => .refused r
  | .running =>
    match s.takeInput with
    | none => .next s
    | some (.resume a, t) => (resumeAgent a t).outcome
    | some (.transaction x, t) =>
      match decode x with
      | .ok i => exec i t
      | .error e => .refused (.invalidKey e)

/-- `s` with the transaction a word of the opcode table spells as its next input (log entry 1). -/
def State.withFetchWord (s : State) (nbits w : Nat) : State := s.presentWord nbits w

end Sys2Proof.Machine
end

