-- ==== Sys2Proof/Safety.lean ====
section
/-! DEFINITION. The terms claims use: the invariant of the core's states, a state ready for a
transaction, the hook's coming answers, runs of several transactions, and a device's answer to a port
read. -/

namespace Sys2Proof.Machine

/-- What holds of every ACIA: status bits 6:2 read 0 (spec/10_state.md rule R25), and the interrupt
line agrees with status bit 7 but for the master reset that leaves the line (spec/42_acia.md rule
R164). -/
structure AciaInv (c : Config) (a : Acia) : Prop where
  reservedZero : a.status &&& 0x7C#8 = 0x00#8
  irqRaisesLine : a.status.getLsbD 7 = true → a.irqLine = true
  lineHasIrq : c.aciaMrClearsIrqLine = true → a.irqLine = true → a.status.getLsbD 7 = true

/-- What holds of every IDE controller: the cursor stays in the buffer (rule R42), DRQ is set iff
bytes remain (rule R43), the error register reads 0x00 between transactions (rule R212), and the
store is in canonical form inside its sectors (rule R44). -/
structure IdeInv (c : Config) (d : Ide) : Prop where
  cursorInBuffer : d.cursor ≤ 512
  drqIffBytesRemain : d.status.getLsbD 3 = decide (d.cursor < 512)
  errorClear : d.error = 0x00#8
  storeCanonical : d.store.wf = true
  storeInRange : Memory.below (512 * c.ideStoreSectors) d.store = true

/-- The invariant of the core's states. -/
structure Inv (s : State) : Prop where
  /-- The configuration is admitted (rule R9). -/
  admitted : s.config.Admitted
  /-- One record per installed instance (rule R23). -/
  aciaCount : s.acias.length = s.config.aciaNumbers.length
  ideCount : s.ides.length = s.config.ides.length
  dioCount : s.dios.length = s.config.dioNumbers.length
  /-- The bank register holds 0..127 (rule R47). -/
  bankRange : s.bank.bank.toNat ≤ 127
  /-- Physical memory is in canonical form inside `Size` (rule R63). -/
  physCanonical : s.bank.phys.wf = true
  physInRange : Memory.below s.config.size s.bank.phys = true
  acias : ∀ a ∈ s.acias, AciaInv s.config a
  ides : ∀ d ∈ s.ides, IdeInv s.config d
  /-- With `RX_ATOMIC` every transaction is one step (rule R76): no sub-step is outstanding. -/
  atomicHasNoRest : s.config.rxAtomic = true → s.emuRest = none ∧ s.hostRest = none
  /-- The machine runs (rule R53). -/
  running : s.stop = .running

/-- A running state whose emulation thread has no sub-step outstanding. -/
abbrev State.Ready (s : State) : Prop := s.stop = .running ∧ s.emuRest = none

/-- `hs` are the answers that the coming CPU-window reads get, one each, and `l` the answers left
after them: the next of the hook's (rule R134, log entry 9), or none at each where there is no hook. -/
def State.ReadAnswers (s : State) (hs l : List (Option Byte)) : Prop :=
  if s.config.memHook then s.hookReads = hs ++ l else (∀ h ∈ hs, h = none) ∧ s.hookReads = l

/-- Likewise for the coming writes, true for accepted. -/
def State.WriteAnswers (s : State) (ws l : List Bool) : Prop :=
  if s.config.memHook then s.hookWrites = ws ++ l else (∀ w ∈ ws, w = false) ∧ s.hookWrites = l

/-- Several transactions, one after another, to the first stop. -/
def execAll : List Instr → State → Outcome
  | [], s => .next s
  | i :: is, s =>
    match exec i s with
    | .next t => execAll is t
    | .fault f => .fault f
    | .refused r => .refused r

/-- The answer of an installed device to a read of port `p`, from its registers in `s` (rule R114). -/
def State.answerTo (s : State) (p : U16) (d : Installed) : Option Byte :=
  match matchPort s.config d p with
  | none => none
  | some off =>
    match deviceRead true d.dev off s with
    | .ok (.answered _ o) => o
    | _ => none

/-- The unit field of a device's keys (spec/30_encoding.md rule R101). -/
def unitOf : DeviceRef → BitVec 3
  | .bank => 1#3
  | .acia _ => 2#3
  | .ide _ => 3#3
  | .dio _ => 4#3

/-- The instance operand of a device's transactions (rule R86). -/
def numberOf : DeviceRef → Nat
  | .bank => 0
  | .acia n => n
  | .ide n => n
  | .dio n => n

/-- The device transaction a bus transaction decodes into at one matched device (rule R101): its
direction, the device's unit, the offset, the value. -/
def deviceKey (direction : BitVec 1) (d : DeviceRef) (off : Nat) (v : Byte) : Transaction :=
  ⟨mkKey direction (unitOf d) (BitVec.ofNat 4 off) v, { dev := numberOf d }⟩

end Sys2Proof.Machine
end

