-- ==== Sys2Proof/Certificates/Slice0/Obligations.lean ====
section
/-! DEFINITION. The statements for the provers. Each docstring names the rules of spec/ its
statement formalises. A next state is written out whole where that is possible, so that the equation
is also the instruction's frame: what it does not name is unchanged. -/

open Sys2Proof Sys2Proof.Machine

/-! ### Keys -/

/-- R101, R102 (the spec's decision D30): no field of a transaction is lost in its key and operands.
-/
def Obligations.DecodeInvertsEncode : Prop :=
  ∀ i : Instr, i.WellFormed → decode (encode i) = .ok i

/-- R101, R102 (D30): what the decoder answers is well formed, and its own key is the key decoded.
-/
def Obligations.DecodedIsWellFormedAndKeepsKey : Prop :=
  ∀ (t : Transaction) (i : Instr), decode t = .ok i → i.WellFormed ∧ (encode i).key = t.key

/-- R102 (D30): among the rows that cover a key, one of highest priority decides, and it is the only
one of its priority: the rows of one priority are disjoint. -/
def Obligations.HighestPriorityRowDecides : Prop :=
  (∀ (k : U16) (r r' : Row), r ∈ rows → r' ∈ rows → r.covers k → r'.covers k →
    r.priority = r'.priority → r.mnemonic = r'.mnemonic) ∧
  (∀ (t : Transaction) (r : Row), r ∈ rows → r.covers t.key →
    (∀ r' ∈ rows, r'.covers t.key → r'.priority ≤ r.priority) →
    decode t = .ok (r.build (keyValue t.key) t.operands))

/-- R104, last item (D30): the keys that spell no transaction. -/
def Obligations.UnspelledKeysAreInvalid : Prop :=
  ∀ t : Transaction,
    (keyUnit t.key = 7#3 ∨
     (keyUnit t.key = 6#3 ∧ 3 ≤ (keySelector t.key).toNat) ∨
     (keyUnit t.key = 5#3 ∧ 2 ≤ (keySelector t.key).toNat) ∨
     (keyUnit t.key = 4#3 ∧ 1 ≤ (keySelector t.key).toNat) ∨
     (keyUnit t.key = 3#3 ∧ 8 ≤ (keySelector t.key).toNat) ∨
     (keyUnit t.key = 2#3 ∧ 2 ≤ (keySelector t.key).toNat) ∨
     (keyUnit t.key = 1#3 ∧ 1 ≤ (keySelector t.key).toNat) ∨
     (keyUnit t.key = 0#3 ∧ keySelector t.key ≠ 0#4) ∨
     (keyDirection t.key = 0#1 ∧ keyValue t.key ≠ 0#8)) →
    ∃ e : KeyError, decode t = .error e

/-- Vectors V91–V96 of spec/95_test_vectors.md, one key per family, and the invalid keys V97–V100.
-/
def Obligations.SampleKeysDecode : Prop :=
  decodeTableWord 16 0x0000 = some (.busRead 0x0000#16) ∧
  decodeTableWord 16 0x9002 = some (.bankWrSelect 0x02#8) ∧
  decodeTableWord 16 0xA003 = some (.aciaWrCtrlMr 0 0x03#8) ∧
  decodeTableWord 16 0xA0FF = some (.aciaWrCtrlMr 0 0xFF#8) ∧
  decodeTableWord 16 0xA002 = some (.aciaWrCtrl 0 0x02#8) ∧
  decodeTableWord 16 0xA096 = some (.aciaWrCtrl 0 0x96#8) ∧
  decodeTableWord 16 0xB7EC = some (.ideCmdIdentify 0) ∧
  decodeTableWord 16 0xB7EF = some (.ideCmdSetFeatures 0) ∧
  decodeTableWord 16 0xB7ED = some (.ideCmdOther 0 0xED#8) ∧
  decodeTableWord 16 0xB700 = some (.ideCmdOther 0 0x00#8) ∧
  decodeTableWord 16 0xC081 = some (.dioWr 0 0x81#8) ∧
  decodeTableWord 16 0xD0AB = some (.memWrite 0x0000#16 0xAB#8) ∧
  decodeTableWord 16 0xE048 = some (.rxData 0 0x48#8) ∧
  (∀ w ∈ [0x7000, 0xF000, 0x2001, 0x2200, 0xA200, 0xE300, 0x5200, 0x0100, 0x8100, 0x9100],
    decodeTableWord 16 w = none)

/-! ### The step -/

/-- The step runs the transaction its next input decodes to, on the state that has taken that input.
The list of inputs is the model's own (log entry 1). -/
def Obligations.StepRunsDecodedTransaction : Prop :=
  ∀ (s : State) (x : Transaction) (rest : List Presented) (i : Instr),
    s.stop = .running → s.pending = .transaction x :: rest → decode x = .ok i →
    step s = exec i { s with pending := rest }

/-- R104 and R21: a key that spells no transaction is refused by name, and without an input nothing
happens. The refusal and the idle step are the model's own (log entries 1 and 13). -/
def Obligations.StepWithoutTransaction : Prop :=
  (∀ (s : State) (x : Transaction) (rest : List Presented) (e : KeyError),
    s.stop = .running → s.pending = .transaction x :: rest → decode x = .error e →
    step s = .refused (.invalidKey e)) ∧
  (∀ s : State, s.stop = .running → s.pending = [] → step s = .next s)

/-- R53 (the spec's decision D37): once the mark is not `running`, no transaction has a step. -/
def Obligations.StoppedStateHasNoStep : Prop :=
  ∀ (s t : State) (i : Instr), s.stop ≠ .running → step s ≠ .next t ∧ exec i s ≠ .next t

/-! ### Configuration, power-on, invariant -/

/-- R9, R238 and the spec's decision D31 (a)–(g): a configuration that fails a condition is refused
at construction. -/
def Obligations.InvalidConfigurationIsRefused : Prop :=
  ∀ c : Config,
    ((c.devices.filter fun d => d.dev == .bank).length ≠ 1 ∨
     c.bankSize < 0x8000 ∨ 0x10000 < c.bankSize ∨ c.size < 2 * c.bankSize ∨
     (∃ d ∈ c.devices, 0x10000 < d.base.toNat + portCount (kindOf d.dev)) ∨
     (∃ g ∈ c.ides, 1 < g.driveIndex) ∨
     (∃ g ∈ c.ides, 0xFFFFFFFF < g.cylinders.toNat * g.heads.toNat * g.sectorsPerTrack.toNat) ∨
     c.ideStatusReset.getLsbD 3 = true ∨
     254 < c.identLbaWord ∨ c.identLbaWord ∈ [0, 1, 2, 3, 5, 6]) →
    ∃ k : ConfigCondition, State.construct c = .refused (.configInvalid k)

/-- R261, R29, R46, R47, R49, R51–R53 (the spec's decisions D5, D11, D20, D21; R51 is the source's):
what every register holds at power-on, for every admitted configuration. The IDE buffer is not
named: the spec leaves it unspecified. -/
def Obligations.PowerOnValues : Prop :=
  ∀ c : Config, c.Admitted → ∃ s, State.construct c = .next s ∧ s.config = c ∧
    s.acias.length = c.aciaNumbers.length ∧ s.ides.length = c.ides.length ∧
    s.dios.length = c.dioNumbers.length ∧
    (∀ a ∈ s.acias, a.control = 0x00#8 ∧ a.status = 0x00#8 ∧ a.hold = 0x00#8 ∧ a.rxq = [] ∧
      a.irqLine = false) ∧
    (∀ d ∈ s.ides, d.error = 0x00#8 ∧ d.features = 0x00#8 ∧ d.seccount = 0x00#8 ∧
      d.secnum = 0x00#8 ∧ d.cyllo = 0x00#8 ∧ d.cylhi = 0x00#8 ∧ d.drvhead = 0x00#8 ∧
      d.status = c.ideStatusReset ∧ d.cursor = 512) ∧
    (∀ d ∈ s.dios, d.input = 0xFF#8) ∧
    s.bank.bank = 0x00#8 ∧ s.bank.phys = c.memInit ∧ s.trace = [] ∧ s.stop = .running

/-- The state construction gives meets the invariant. -/
def Obligations.PowerOnMeetsInv : Prop := ∀ c : Config, c.Admitted → Inv (State.powerOn c)

/-- The reset state meets the invariant. Its board is the model's choice (log entry 2). -/
def Obligations.ResetMeetsInv : Prop := Inv State.reset

/-- R9, R25, R42–R44, R47, R53, R63, R164, R212: every step keeps the invariant. -/
def Obligations.StepKeepsInv : Prop :=
  ∀ s t : State, Inv s → step s = .next t → Inv t

/-- R54 (D22): the configuration is a parameter of the step: no step changes it, nor the number of
instances. -/
def Obligations.StepKeepsConfiguration : Prop :=
  ∀ s t : State, step s = .next t → t.config = s.config ∧ t.acias.length = s.acias.length ∧
    t.ides.length = s.ides.length ∧ t.dios.length = s.dios.length

/-- R86: a device transaction whose operand names no instance of the board is refused. The refusal
is the model's own (log entry 12). -/
def Obligations.MissingInstanceIsRefused : Prop :=
  ∀ (s : State) (n : Nat) (v : Byte), s.Ready → s.hostRest = none →
    (s.acias[n]? = none → ∀ i ∈ [Instr.aciaWrCtrlMr n v, .aciaWrCtrl n v, .aciaWrData n v,
        .aciaRdStatus n, .aciaRdData n, .rxData n v, .irqQuery n],
      exec i s = .refused (.noSuchDevice .acia n)) ∧
    (s.ides[n]? = none → ∀ i ∈ [Instr.ideRdData n, .ideRdError n, .ideRdSeccnt n, .ideRdSecnum n,
        .ideRdCyllo n, .ideRdCylhi n, .ideRdDrvhead n, .ideRdStatus n, .ideWrData n v,
        .ideWrFeatures n v, .ideWrSeccnt n v, .ideWrSecnum n v, .ideWrCyllo n v, .ideWrCylhi n v,
        .ideWrDrvhead n v, .ideCmdIdentify n, .ideCmdSetFeatures n, .ideCmdOther n v],
      exec i s = .refused (.noSuchDevice .ide n)) ∧
    (s.dios[n]? = none → ∀ i ∈ [Instr.dioRd n, .dioWr n v, .dioSetInput n v],
      exec i s = .refused (.noSuchDevice .dio n))

/-! ### The port bus -/

/-- R111, R112 (the spec's decisions D1, D2): the port decoder, with the mask on both sides, the
difference of integers and the range of each kind; every statement on the bus means ports by it.
And R119: a read of a port no device matches returns the floating bus and changes no state; and, of
R115, a write to it has no effect. -/
def Obligations.UnmatchedPortFloats : Prop :=
  (∀ (c : Config) (d : Installed) (p : U16) (off : Nat),
    matchPort c d p = some off ↔
      (off : Int) = ((p &&& c.portMask).toNat : Int) - ((d.base &&& c.portMask).toNat : Int) ∧
      off < (match d.dev with
        | .bank => 1
        | .acia _ => 2
        | .ide _ => 8
        | .dio _ => 1)) ∧
  (∀ (s : State) (p : U16) (v : Byte), s.Ready →
    (∀ d ∈ s.config.devices, matchPort s.config d p = none) →
    exec (.busRead p) s = .next { s with result := .byte 0xFF#8 } ∧
    exec (.busWrite p v) s = .next { s with result := .nothing })

/-- R113, R114, R118: with `RX_ATOMIC`, a port read returns the AND of every matching device's
answer from its own registers before the read, whatever order the devices are visited in, with each
one's side effects (R159 of an ACIA's data register, R201 of an IDE controller's), and touches no
device that does not match. That a draw past the buffer's end is counted is the model's own (log
entry 4). -/
def Obligations.BusReadIsWiredAnd : Prop :=
  ∀ (s : State) (p : U16), Inv s → s.config.rxAtomic = true →
    ∃ t, exec (.busRead p) s = .next t ∧
      t.result = .byte ((s.config.devices.filterMap (s.answerTo p)).foldl (· &&& ·) 0xFF#8) ∧
      (∀ n, (∀ d ∈ s.config.devices, d.dev = .acia n → matchPort s.config d p ≠ some 1) →
        t.acias[n]? = s.acias[n]?) ∧
      (∀ n, (∀ d ∈ s.config.devices, d.dev = .ide n → matchPort s.config d p ≠ some 0) →
        t.ides[n]? = s.ides[n]?) ∧
      (∀ n a, s.acias[n]? = some a →
        (∃ d ∈ s.config.devices, d.dev = .acia n ∧ matchPort s.config d p = some 1) →
        t.acias[n]? = some (match a.rxq with
          | [] => a
          | [b] => { a with
              hold := b, rxq := [], status := a.status &&& 0x7E#8, irqLine := false }
          | b :: q =>
            if a.control.getLsbD 7 = true then
              { a with hold := b, rxq := q, status := a.status ||| 0x81#8, irqLine := true }
            else { a with hold := b, rxq := q, status := a.status ||| 0x01#8 })) ∧
      (∀ n g d, s.ide? n = some (g, d) →
        (∃ e ∈ s.config.devices, e.dev = .ide n ∧ matchPort s.config e p = some 0) →
        t.ides[n]? = some (
          if (d.drvhead.getLsbD 4).toNat ≠ g.driveIndex then d
          else if d.cursor < 512 then { d with
            cursor := d.cursor + 1
            status := if d.cursor + 1 < 512 then d.status ||| 0x08#8 else d.status &&& 0xF7#8 }
          else { d with draws := d.draws + 1 })) ∧
      t = { s with acias := t.acias, ides := t.ides, result := t.result }

/-- R113: no port read faults or refuses, from any running state; with `RX_ATOMIC` it returns its
byte, and without it it may leave sub-steps outstanding (R165). Registers that no device read
writes, and all of memory, are unchanged. -/
def Obligations.BusReadNeverStops : Prop :=
  ∀ (s : State) (p : U16), s.Ready →
    ∃ t, exec (.busRead p) s = .next t ∧
      ((t.emuRest = none ∧ ∃ v, t.result = .byte v) ∨
       (s.config.rxAtomic = false ∧ t.result = .inFlight ∧ ∃ r, t.emuRest = some r)) ∧
      t = { s with acias := t.acias, ides := t.ides, result := t.result, emuRest := t.emuRest }

/-- R101, R114: a port read matched by one device returns what that device's own read transaction
answers, with `none` read as the floating bus, and leaves what that transaction leaves. -/
def Obligations.BusReadActsAsItsOnlyDevice : Prop :=
  ∀ (s t : State) (p : U16) (xs ys : List Installed) (d : Installed) (off : Nat) (i : Instr)
    (o : Option Byte),
    s.Ready → s.config.rxAtomic = true → s.config.devices = xs ++ d :: ys →
    (∀ e ∈ xs ++ ys, matchPort s.config e p = none) → matchPort s.config d p = some off →
    decode (deviceKey 0#1 d.dev off 0x00#8) = .ok i →
    exec i s = .next t → t.result = .opinion o →
    exec (.busRead p) s = .next { t with result := .byte (o.getD 0xFF#8) }

/-- R101, R115: a port write matched by one device is that device's own write transaction, with its
refusals. -/
def Obligations.BusWriteActsAsItsOnlyDevice : Prop :=
  ∀ (s : State) (p : U16) (v : Byte) (xs ys : List Installed) (d : Installed) (off : Nat)
    (i : Instr),
    s.Ready → s.config.devices = xs ++ d :: ys →
    (∀ e ∈ xs ++ ys, matchPort s.config e p = none) → matchPort s.config d p = some off →
    decode (deviceKey 1#1 d.dev off v) = .ok i →
    exec (.busWrite p v) s = exec i s

/-- R81, R116 (the spec's decisions D4, D34): a port write matched by two devices runs both their
write transactions, in installed order. -/
def Obligations.BusWriteReachesBothInInstalledOrder : Prop :=
  ∀ (s t : State) (p : U16) (v : Byte) (xs ys zs : List Installed) (d e : Installed)
    (off off' : Nat) (i j : Instr),
    s.Ready → s.config.devices = xs ++ d :: (ys ++ e :: zs) →
    (∀ x ∈ xs ++ ys ++ zs, matchPort s.config x p = none) →
    matchPort s.config d p = some off → matchPort s.config e p = some off' →
    decode (deviceKey 1#1 d.dev off v) = .ok i → decode (deviceKey 1#1 e.dev off' v) = .ok j →
    exec i s = .next t → exec (.busWrite p v) s = exec j t

/-- R115, R81 (D4): a port write that reaches no IDE data register, and no IDE command register
under the policy `refuse`, completes at every matching device: the bank register, each ACIA's
control, each drive/head register takes the byte, and the events stand in installed order. -/
def Obligations.BusWriteFansOut : Prop :=
  ∀ (s : State) (p : U16) (v : Byte), Inv s → s.Ready →
    (∀ d ∈ s.config.devices, ∀ n, d.dev = .ide n → matchPort s.config d p ≠ some 0 ∧
      (matchPort s.config d p = some 7 → s.config.ideUnlistedCmd = .abort)) →
    ∃ t, exec (.busWrite p v) s = .next t ∧ t.result = .nothing ∧
      t = { s with
        bank := { s.bank with bank := t.bank.bank }, acias := t.acias, ides := t.ides
        trace := t.trace, result := .nothing } ∧
      t.trace = s.trace ++ s.config.devices.filterMap (fun d =>
        match d.dev, matchPort s.config d p with
        | .acia n, some 1 => some (.txByte n v)
        | .dio n, some 0 => some (.dioOut n v)
        | _, _ => none) ∧
      ((∃ d ∈ s.config.devices, d.dev = .bank ∧ matchPort s.config d p = some 0) →
        t.bank.bank = v >>> 1) ∧
      ((∀ d ∈ s.config.devices, d.dev = .bank → matchPort s.config d p = none) →
        t.bank.bank = s.bank.bank) ∧
      (∀ d ∈ s.config.devices, ∀ n, d.dev = .acia n → matchPort s.config d p = some 0 →
        ∃ a, t.acias[n]? = some a ∧ a.control = v) ∧
      (∀ d ∈ s.config.devices, ∀ n, d.dev = .acia n → matchPort s.config d p = none →
        t.acias[n]? = s.acias[n]?) ∧
      (∀ d ∈ s.config.devices, ∀ n, d.dev = .ide n → matchPort s.config d p = some 6 →
        ∃ e, t.ides[n]? = some e ∧ e.drvhead = v) ∧
      (∀ d ∈ s.config.devices, ∀ n, d.dev = .ide n → matchPort s.config d p = none →
        t.ides[n]? = s.ides[n]?)

/-! ### BankedMemory -/

/-- R127, and R128 (the spec's decision D3): a bank select of any value stores `v >> 1`; a read of
the port has no opinion. -/
def Obligations.BankRegisterIsWriteOnly : Prop :=
  ∀ (s : State) (v : Byte), s.Ready →
    exec (.bankWrSelect v) s =
      .next { s with bank := { s.bank with bank := v >>> 1 }, result := .nothing } ∧
    exec .bankRd s = .next { s with result := .opinion none }

/-- R129, R131: an unhooked read inside `Size`, with the mapping spelled out. -/
def Obligations.MemReadReturnsMappedByte : Prop :=
  ∀ (s : State) (a : U16) (o : Nat), s.Ready → s.config.memHook = false →
    o = (if a.toNat < s.config.bankSize then a.toNat + s.bank.bank.toNat * s.config.bankSize
      else (s.config.size - 2 * s.config.bankSize) + a.toNat) →
    o < s.config.size →
    exec (.memRead a) s = .next { s with result := .byte (s.physRead o) }

/-- R129, R132: an unhooked write inside `Size` stores one byte of physical memory; every other
physical byte reads as before. -/
def Obligations.MemWriteStoresMappedByte : Prop :=
  ∀ (s : State) (a : U16) (v : Byte) (o : Nat), s.Ready → s.config.memHook = false →
    o = (if a.toNat < s.config.bankSize then a.toNat + s.bank.bank.toNat * s.config.bankSize
      else (s.config.size - 2 * s.config.bankSize) + a.toNat) →
    o < s.config.size →
    ∃ m : Memory,
      exec (.memWrite a v) s =
        .next { s with bank := { s.bank with phys := m }, result := .nothing } ∧
      ∀ x, m.physRead x = if x = o then v else s.physRead x

/-- R133 (the spec's decision D19): an unhooked access whose physical offset reaches `Size` stops
with the CPU address and the bank; a bank select of any value completes. -/
def Obligations.AccessPastSizeFaults : Prop :=
  ∀ (s : State) (a : U16) (v : Byte) (o : Nat), s.Ready → s.config.memHook = false →
    o = (if a.toNat < s.config.bankSize then a.toNat + s.bank.bank.toNat * s.config.bankSize
      else (s.config.size - 2 * s.config.bankSize) + a.toNat) →
    s.config.size ≤ o →
    exec (.memRead a) s = .fault (.bankOutOfRange a s.bank.bank) ∧
    exec (.memWrite a v) s = .fault (.bankOutOfRange a s.bank.bank) ∧
    ∃ t, exec (.bankWrSelect v) s = .next t

/-- R134 (the spec's decision D22): with a hook, an answer bypasses physical memory and the
mapping's range, and a declined access goes on as without a hook, with the fault of R133 (decision
D19). That the answers wait in a list, and that an answer has no side effect on the core, which R69
leaves open, are the model's own (log entry 9). -/
def Obligations.HookBypassesPhysicalMemory : Prop :=
  ∀ (s : State) (a : U16) (v : Byte), s.Ready → s.config.memHook = true →
    (∀ h l, s.hookReads = some h :: l →
      exec (.memRead a) s = .next { s with hookReads := l, result := .byte h }) ∧
    (∀ l, s.hookReads = none :: l → physOff s.config s.bank.bank a < s.config.size →
      exec (.memRead a) s = .next { s with
        hookReads := l, result := .byte (s.physRead (physOff s.config s.bank.bank a)) }) ∧
    (∀ l, s.hookReads = none :: l → s.config.size ≤ physOff s.config s.bank.bank a →
      exec (.memRead a) s = .fault (.bankOutOfRange a s.bank.bank)) ∧
    (∀ l, s.hookWrites = true :: l →
      exec (.memWrite a v) s = .next { s with hookWrites := l, result := .nothing }) ∧
    (∀ l, s.hookWrites = false :: l → physOff s.config s.bank.bank a < s.config.size →
      ∃ m : Memory, exec (.memWrite a v) s = .next { s with
          hookWrites := l, bank := { s.bank with phys := m }, result := .nothing } ∧
        ∀ x, m.physRead x =
          if x = physOff s.config s.bank.bank a then v else s.physRead x) ∧
    (∀ l, s.hookWrites = false :: l → s.config.size ≤ physOff s.config s.bank.bank a →
      exec (.memWrite a v) s = .fault (.bankOutOfRange a s.bank.bank))

/-- R130, R135 (D20; R135 is derived in the spec): upper RAM lies inside `Size` and reads the same
whatever bank is selected, and selecting a bank does not change what it reads. -/
def Obligations.UpperRamIgnoresBank : Prop :=
  ∀ (s : State) (a : U16) (v : Byte), Inv s → s.Ready → s.config.memHook = false →
    s.config.bankSize ≤ a.toNat →
    ∃ b t, exec (.memRead a) s = .next { s with result := .byte b } ∧
      exec (.bankWrSelect v) s = .next t ∧
      exec (.memRead a) t = .next { t with result := .byte b }

/-- R136 (derived in the spec from R127, R129 and R133): what a bank whose window fits reads below
`BankSize` is the physical byte at `a + k*BankSize`, whichever of its two select values is written,
and a write through another bank does not change it. -/
def Obligations.BanksAreIsolated : Prop :=
  ∀ (s : State) (a b : U16) (u v w : Byte) (j k : Nat), Inv s → s.Ready →
    s.config.memHook = false → a.toNat < s.config.bankSize → b.toNat < s.config.bankSize →
    j = u.toNat / 2 → k = w.toNat / 2 → j ≠ k →
    b.toNat + j * s.config.bankSize < s.config.size →
    (k + 1) * s.config.bankSize ≤ s.config.size →
    ∃ t, execAll [.bankWrSelect u, .memWrite b v, .bankWrSelect w, .memRead a] s = .next t ∧
      t.result = .byte (s.physRead (a.toNat + k * s.config.bankSize))

/-- R137 (derived in the spec), where there is an upper region (`BankSize` below 0x10000): some byte
of bank `k`'s window is also a byte of upper RAM exactly when both inequalities hold. -/
def Obligations.BankAliasesUpperRamIff : Prop :=
  ∀ (c : Config) (k : Byte), c.Admitted → c.bankSize < 0x10000 →
    ((∃ a u : U16, a.toNat < c.bankSize ∧ c.bankSize ≤ u.toNat ∧
        physOff c k a = physOff c k u) ↔
      (c.size - c.bankSize ≤ k.toNat * c.bankSize + c.bankSize - 1 ∧
       k.toNat * c.bankSize ≤ c.size - 2 * c.bankSize + 0xFFFF))

/-- R141, R239 (the spec's decision D23): a bulk operation whose arguments fail a condition returns
the error and changes nothing. -/
def Obligations.BulkArgumentsAreChecked : Prop :=
  ∀ (s : State) (start : Int) (buffer : List Byte) (index len : Int), s.Ready →
    (0x10000 < start + len ∨ index < 0 ∨ (buffer.length : Int) < index + len ∨ start < 0 ∨
      len < 0) →
    exec (.memSetContents start buffer index len) s = .next { s with result := .outOfRange } ∧
    exec (.memGetContents start buffer index len) s = .next { s with result := .outOfRange }

/-- R142 (D23), with a hook and without one: a bulk write whose arguments pass the check sends each
byte through the hook first. A byte the hook accepts bypasses physical memory; the others, if they
all lie inside `Size`, are written through the mapping (of two bytes at one physical offset the
later stays), and no other byte changes. The list of answers, and that an answer has no side effect
on the core, are the model's own (log entry 9). -/
def Obligations.SetContentsWritesEveryByte : Prop :=
  ∀ (s : State) (start index len : Nat) (buffer : List Byte) (ws l : List Bool), s.Ready →
    s.WriteAnswers ws l → ws.length = len → start + len ≤ 0x10000 →
    index + len ≤ buffer.length →
    (∀ i < len, ws[i]? = some false →
      physOff s.config s.bank.bank (BitVec.ofNat 16 (start + i)) < s.config.size) →
    ∃ m : Memory,
      exec (.memSetContents start buffer index len) s =
        .next { s with
          bank := { s.bank with phys := m }, hookWrites := l, result := .ok } ∧
      (∀ i < len, ws[i]? = some false →
        (∀ j < len, i < j → ws[j]? = some false →
          physOff s.config s.bank.bank (BitVec.ofNat 16 (start + j)) ≠
            physOff s.config s.bank.bank (BitVec.ofNat 16 (start + i))) →
        some (m.physRead (physOff s.config s.bank.bank (BitVec.ofNat 16 (start + i)))) =
          buffer[index + i]?) ∧
      (∀ x, (∀ i < len, ws[i]? = some false →
          physOff s.config s.bank.bank (BitVec.ofNat 16 (start + i)) ≠ x) →
        m.physRead x = s.physRead x)

/-- R142, R240 (D19, D23), with a hook and without one: the first byte that the hook does not accept
and whose physical offset reaches `Size` stops a bulk write, and the bytes before it stay written in
the state it leaves. The list of answers is the model's own (log entry 9). -/
def Obligations.SetContentsStopsAtFirstBadByte : Prop :=
  ∀ (s : State) (start index len n : Nat) (buffer : List Byte) (ws l : List Bool), s.Ready →
    s.WriteAnswers ws l → ws.length = n + 1 → start + len ≤ 0x10000 →
    index + len ≤ buffer.length → n < len →
    (∀ i < n, ws[i]? = some false →
      physOff s.config s.bank.bank (BitVec.ofNat 16 (start + i)) < s.config.size) →
    ws[n]? = some false →
    s.config.size ≤ physOff s.config s.bank.bank (BitVec.ofNat 16 (start + n)) →
    exec (.memSetContents start buffer index len) s =
      .fault (.bankOutOfRange (BitVec.ofNat 16 (start + n)) s.bank.bank) ∧
    ∃ t, exec (.memSetContents start buffer index n) s = .next t ∧
      ∀ x, (setContents start buffer index len s).physRead x = t.physRead x

/-- R143 (D23, D19), with a hook and without one: a bulk read whose arguments pass the check sends
each byte through the hook first. If every byte the hook does not answer lies inside `Size`, it
returns the caller's buffer with the bytes of the span in place, each the hook's answer or else the
mapped byte, and changes no state. The first unanswered byte whose physical offset reaches `Size`
stops it, and the state it leaves holds the buffer with the bytes before it in place. That the
buffer stands in `result` is the model's own (log entry 17), and so are the list of answers and that
an answer has no side effect on the core (log entry 9). -/
def Obligations.GetContentsReadsEveryByte : Prop :=
  ∀ (s : State) (start index len : Nat) (buffer : List Byte) (hs l : List (Option Byte)),
    s.Ready → s.ReadAnswers hs l → start + len ≤ 0x10000 → index + len ≤ buffer.length →
    (hs.length = len →
      (∀ i < len, hs[i]? = some none →
        physOff s.config s.bank.bank (BitVec.ofNat 16 (start + i)) < s.config.size) →
      exec (.memGetContents start buffer index len) s =
        .next { s with
          hookReads := l
          result := .contents (buffer.take index ++
            (List.range len).map (fun i => (hs.getD i none).getD
              (s.physRead (physOff s.config s.bank.bank (BitVec.ofNat 16 (start + i))))) ++
            buffer.drop (index + len)) }) ∧
    (∀ n < len, hs.length = n + 1 →
      (∀ i < n, hs[i]? = some none →
        physOff s.config s.bank.bank (BitVec.ofNat 16 (start + i)) < s.config.size) →
      hs[n]? = some none →
      s.config.size ≤ physOff s.config s.bank.bank (BitVec.ofNat 16 (start + n)) →
      exec (.memGetContents start buffer index len) s =
        .fault (.bankOutOfRange (BitVec.ofNat 16 (start + n)) s.bank.bank) ∧
      (getContents start buffer index len s).result = .contents (buffer.take index ++
        (List.range n).map (fun i => (hs.getD i none).getD
          (s.physRead (physOff s.config s.bank.bank (BitVec.ofNat 16 (start + i))))) ++
        buffer.drop (index + n)))

/-! ### ACIA -/

/-- R154: the configure path, key 0xA0vv, stores the byte and sets TDRE; nothing else changes. -/
def Obligations.ControlWriteSetsTransmitEmpty : Prop :=
  ∀ (s : State) (n : Nat) (v : Byte) (a : Acia), s.Ready → s.acias[n]? = some a →
    (v.extractLsb' 0 2 ≠ 3#2 →
      decode ⟨0xA000#16 ||| v.setWidth 16, { dev := n }⟩ = .ok (.aciaWrCtrl n v)) ∧
    exec (.aciaWrCtrl n v) s =
      .next { s with
        acias := s.acias.set n { a with control := v, status := a.status ||| 0x02#8 }
        result := .nothing }

/-- R155, R162 (the spec's decisions D6, D7, D36): master reset stores the byte and clears the
status; the queue and the holding register stay, and the interrupt line falls only under
`ACIA_MR_CLEARS_IRQ_LINE`. The interrupt query returns the line and changes nothing. -/
def Obligations.MasterResetClearsStatus : Prop :=
  ∀ (s : State) (n : Nat) (v : Byte) (a : Acia), s.Ready → s.acias[n]? = some a →
    exec (.aciaWrCtrlMr n v) s =
      .next { s with
        acias := s.acias.set n { a with
          control := v
          status := 0x00#8
          irqLine := a.irqLine && !s.config.aciaMrClearsIrqLine }
        result := .nothing } ∧
    exec (.irqQuery n) s = .next { s with result := .flag a.irqLine }

/-- R156 (the spec's decision D29): a data write emits its event and sets TDRE; the receive side
stays. -/
def Obligations.DataWriteEmitsByte : Prop :=
  ∀ (s : State) (n : Nat) (v : Byte) (a : Acia), s.Ready → s.acias[n]? = some a →
    exec (.aciaWrData n v) s =
      .next { s with
        acias := s.acias.set n { a with status := a.status ||| 0x02#8 }
        trace := s.trace ++ [.txByte n v]
        result := .nothing }

/-- R157: the status read, key 0x2000, returns the status and changes nothing; bits 6:2 are 0. -/
def Obligations.StatusReadChangesNothing : Prop :=
  ∀ (s : State) (n : Nat) (a : Acia), s.Ready → s.acias[n]? = some a →
    decode ⟨0x2000#16, { dev := n }⟩ = .ok (.aciaRdStatus n) ∧
    exec (.aciaRdStatus n) s = .next { s with result := .opinion (some a.status) } ∧
    (Inv s → a.status &&& 0x7C#8 = 0x00#8)

/-- R158, R159 (D35), with `RX_ATOMIC`: a data read takes the head of the queue, and the three rows
of R159. -/
def Obligations.DataReadTakesHead : Prop :=
  ∀ (s : State) (n : Nat) (a : Acia) (b : Byte) (q : List Byte), s.Ready →
    s.config.rxAtomic = true → s.acias[n]? = some a → a.rxq = b :: q →
    exec (.aciaRdData n) s =
      .next { s with
        acias := s.acias.set n
          (if q = [] then
            { a with hold := b, rxq := [], status := a.status &&& 0x7E#8, irqLine := false }
          else if a.control.getLsbD 7 = true then
            { a with hold := b, rxq := q, status := a.status ||| 0x81#8, irqLine := true }
          else { a with hold := b, rxq := q, status := a.status ||| 0x01#8 })
        result := .opinion (some b) }

/-- R160: a data read with an empty queue returns the stale holding register and changes nothing,
whatever `RX_ATOMIC` is. -/
def Obligations.EmptyDataReadIsStale : Prop :=
  ∀ (s : State) (n : Nat) (a : Acia), s.Ready → s.acias[n]? = some a → a.rxq = [] →
    exec (.aciaRdData n) s = .next { s with result := .opinion (some a.hold) }

/-- R161 (D35), with `RX_ATOMIC`: a received byte joins the tail of the queue, RDRF is set, and with
RIE the interrupt is asserted. -/
def Obligations.ReceivedByteIsQueued : Prop :=
  ∀ (s : State) (n : Nat) (v : Byte) (a : Acia), s.stop = .running → s.hostRest = none →
    s.config.rxAtomic = true → s.acias[n]? = some a →
    exec (.rxData n v) s =
      .next { s with
        acias := s.acias.set n
          (if a.control.getLsbD 7 = true then
            { a with rxq := a.rxq ++ [v], status := a.status ||| 0x81#8, irqLine := true }
          else { a with rxq := a.rxq ++ [v], status := a.status ||| 0x01#8 })
        result := .nothing }

/-- R164 (derived in the spec; D6): where every ACIA's interrupt line equals its status bit 7, it
does so after every transaction but a master reset, presented at the port or at the device, with
`ACIA_MR_CLEARS_IRQ_LINE` false. -/
def Obligations.InterruptLineFollowsStatus : Prop :=
  ∀ (s t : State) (i : Instr),
    (∀ a ∈ s.acias, a.irqLine = a.status.getLsbD 7) → exec i s = .next t →
    (s.config.aciaMrClearsIrqLine = true ∨
      ((∀ n v, i ≠ .aciaWrCtrlMr n v) ∧
       (∀ p v, i = .busWrite p v → v.extractLsb' 0 2 = 3#2 → ∀ d ∈ s.config.devices, ∀ n,
         d.dev = .acia n → matchPort s.config d p ≠ some 0))) →
    ∀ a ∈ t.acias, a.irqLine = a.status.getLsbD 7

/-- R78, R152 and the property L1.2: with `RX_ATOMIC`, the bytes received by an ACIA whose queue is
empty are read back in the order they came, and RDRF clears with the read that empties the queue. -/
def Obligations.ReceiveQueueIsFifo : Prop :=
  ∀ (s : State) (n : Nat) (a : Acia) (bs : List Byte), s.Ready → s.hostRest = none →
    s.config.rxAtomic = true → s.acias[n]? = some a → a.rxq = [] →
    ∃ t, execAll (bs.map (.rxData n)) s = .next t ∧
      ∀ k b, bs[k]? = some b →
        ∃ u a', execAll (List.replicate (k + 1) (.aciaRdData n)) t = .next u ∧
          u.result = .opinion (some b) ∧ u.acias[n]? = some a' ∧
          a'.rxq = bs.drop (k + 1) ∧ a'.status.getLsbD 0 = decide (k + 1 < bs.length)

/-- R165 (the spec's decision D8): with `RX_ATOMIC` false, the two splits. A received byte is queued
first and its flags follow; a data read of a non-empty queue takes its byte first and its flags
follow. So too of a port read that reaches the data register: the AND of R113 takes the byte in with
its flags, and where devices of the port are left their reads come after. That the flags come with
an input that resumes the agent, and that a port read stops after each device's read, are the
model's own (log entry 10). -/
def Obligations.SplitTransactionsRunInTwoSteps : Prop :=
  ∀ (s : State) (n : Nat) (v : Byte) (a : Acia), s.Ready → s.hostRest = none →
    s.config.rxAtomic = false → s.acias[n]? = some a →
    exec (.rxData n v) s =
      .next { s with
        acias := s.acias.set n { a with rxq := a.rxq ++ [v] }
        hostRest := some n
        result := .nothing } ∧
    (∀ b q, a.rxq = b :: q →
      exec (.aciaRdData n) s =
        .next { s with
          acias := s.acias.set n { a with hold := b, rxq := q }
          emuRest := some (.settle ⟨n, q.isEmpty, b⟩ none)
          result := .inFlight }) ∧
    (∀ rest, s.pending = .resume .producer :: rest →
      step { s with hostRest := some n } =
        .next { s with
          acias := s.acias.set n
            (if a.control.getLsbD 7 = true then
              { a with status := a.status ||| 0x81#8, irqLine := true }
            else { a with status := a.status ||| 0x01#8 })
          pending := rest }) ∧
    (∀ rest b empty, s.pending = .resume .emulation :: rest →
      step { s with emuRest := some (.settle ⟨n, empty, b⟩ none) } =
        .next { s with
          acias := s.acias.set n
            (if empty = true then
              { a with status := a.status &&& 0x7E#8, irqLine := false }
            else if a.control.getLsbD 7 = true then
              { a with status := a.status ||| 0x81#8, irqLine := true }
            else { a with status := a.status ||| 0x01#8 })
          pending := rest
          result := .opinion (some b) }) ∧
    (∀ p base xs ys, s.config.devices = xs ++ ⟨base, .acia n⟩ :: ys →
      (∀ e ∈ xs ++ ys, matchPort s.config e p = none) →
      matchPort s.config ⟨base, .acia n⟩ p = some 1 →
      (a.rxq = [] → exec (.busRead p) s = .next { s with result := .byte a.hold }) ∧
      (∀ b q, a.rxq = b :: q →
        exec (.busRead p) s =
          .next { s with
            acias := s.acias.set n { a with hold := b, rxq := q }
            emuRest := some (.settle ⟨n, q.isEmpty, b⟩ (some ⟨p, ys, 0xFF#8⟩))
            result := .inFlight })) ∧
    (∀ rest p ds acc b empty, s.pending = .resume .emulation :: rest →
      step { s with emuRest := some (.settle ⟨n, empty, b⟩ (some ⟨p, ds, acc⟩)) } =
        .next { s with
          acias := s.acias.set n
            (if empty = true then
              { a with status := a.status &&& 0x7E#8, irqLine := false }
            else if a.control.getLsbD 7 = true then
              { a with status := a.status ||| 0x81#8, irqLine := true }
            else { a with status := a.status ||| 0x01#8 })
          pending := rest
          emuRest := if ∀ e ∈ ds, matchPort s.config e p = none then none
            else some (.port ⟨p, ds, acc &&& b⟩)
          result := if ∀ e ∈ ds, matchPort s.config e p = none then .byte (acc &&& b)
            else .inFlight }) ∧
    (∀ rest p base ds acc b q, s.pending = .resume .emulation :: rest → a.rxq = b :: q →
      matchPort s.config ⟨base, .acia n⟩ p = some 1 →
      step { s with emuRest := some (.port ⟨p, ⟨base, .acia n⟩ :: ds, acc⟩) } =
        .next { s with
          acias := s.acias.set n { a with hold := b, rxq := q }
          pending := rest
          emuRest := some (.settle ⟨n, q.isEmpty, b⟩ (some ⟨p, ds, acc⟩))
          result := .inFlight })

/-- R165 (D8), the interleaving rd.a, rx.a, rx.b, rd.b (vector V54): it ends with the byte queued,
RDRF 0 and the interrupt line false, whether the read is presented at the device or, as in V54, at
a port that only that ACIA matches. The list of inputs that brings it about, and its inputs that
resume an agent, are the model's own (log entries 1 and 10). -/
def Obligations.InterleavingStrandsByte : Prop :=
  ∀ (s : State) (n : Nat) (a : Acia) (x y : Byte) (k k' : Transaction) (i : Instr) (r : Result),
    s.Ready → s.hostRest = none → s.config.rxAtomic = false → s.acias[n]? = some a →
    a.rxq = [x] →
    (i = .aciaRdData n ∧ r = .opinion (some x) ∨
      ∃ p base xs ys, i = .busRead p ∧ r = .byte x ∧
        s.config.devices = xs ++ ⟨base, .acia n⟩ :: ys ∧
        (∀ e ∈ xs ++ ys, matchPort s.config e p = none) ∧
        matchPort s.config ⟨base, .acia n⟩ p = some 1) →
    decode k = .ok i → decode k' = .ok (.rxData n y) →
    s.pending = [.transaction k, .transaction k', .resume .producer, .resume .emulation] →
    ∃ t a', Host.Core.run Sys2Proof.core 4 s = .next t ∧ t.result = r ∧
      t.acias[n]? = some a' ∧
      a'.rxq = [y] ∧ a'.hold = x ∧ a'.status = a.status &&& 0x7E#8 ∧ a'.irqLine = false

/-- R165 (D8): each agent's own sub-steps stay in program order: an outstanding sub-step runs before
the agent's next transaction. That it runs when that transaction is presented, if no input resumed
it before, is the model's own (log entry 10), and so is that DIO_SET_INPUT stands between two
transactions of the emulation thread (log entry 18). What an rd.b leaves is R159's, of a device's
read and of a port read with no matching device left, and what an rx.b leaves is R161's. -/
def Obligations.OwnSubStepComesFirst : Prop :=
  ∀ (s : State) (i : Instr),
    ((∀ n v, i ≠ .rxData n v) →
      exec i s = exec i s.finishRead ∧ s.finishRead.emuRest = none) ∧
    (∀ n v, exec (.rxData n v) s = exec (.rxData n v) s.finishReceive ∧
      s.finishReceive.hostRest = none) ∧
    (∀ n a b empty bus, s.acias[n]? = some a → s.emuRest = some (.settle ⟨n, empty, b⟩ bus) →
      (∀ r, bus = some r → ∀ e ∈ r.devices, matchPort s.config e r.port = none) →
      s.finishRead = { s with
        acias := s.acias.set n
          (if empty = true then
            { a with status := a.status &&& 0x7E#8, irqLine := false }
          else if a.control.getLsbD 7 = true then
            { a with status := a.status ||| 0x81#8, irqLine := true }
          else { a with status := a.status ||| 0x01#8 })
        emuRest := none
        result := match bus with
          | none => .opinion (some b)
          | some r => .byte (r.acc &&& b) }) ∧
    (∀ n a, s.acias[n]? = some a → s.hostRest = some n →
      s.finishReceive = { s with
        acias := s.acias.set n
          (if a.control.getLsbD 7 = true then
            { a with status := a.status ||| 0x81#8, irqLine := true }
          else { a with status := a.status ||| 0x01#8 })
        hostRest := none })

/-! ### IDE -/

/-- R182: a read of any offset of an unselected controller returns 0xFF and changes no state. -/
def Obligations.UnselectedReadsFloat : Prop :=
  ∀ (s : State) (n : Nat) (g : IdeConfig) (d : Ide), s.Ready → s.ide? n = some (g, d) →
    (d.drvhead.getLsbD 4).toNat ≠ g.driveIndex →
    ∀ i ∈ [Instr.ideRdData n, .ideRdError n, .ideRdSeccnt n, .ideRdSecnum n, .ideRdCyllo n,
        .ideRdCylhi n, .ideRdDrvhead n, .ideRdStatus n],
      exec i s = .next { s with result := .opinion (some 0xFF#8) }

/-- R183: a write to any offset but 6 of an unselected controller is dropped, commands and data
writes among them; a write to offset 6 takes effect. -/
def Obligations.UnselectedWritesAreDropped : Prop :=
  ∀ (s : State) (n : Nat) (v : Byte) (g : IdeConfig) (d : Ide), s.Ready →
    s.ide? n = some (g, d) → (d.drvhead.getLsbD 4).toNat ≠ g.driveIndex →
    (∀ i ∈ [Instr.ideWrData n v, .ideWrFeatures n v, .ideWrSeccnt n v, .ideWrSecnum n v,
        .ideWrCyllo n v, .ideWrCylhi n v, .ideCmdIdentify n, .ideCmdSetFeatures n,
        .ideCmdOther n v],
      exec i s = .next { s with result := .nothing }) ∧
    exec (.ideWrDrvhead n v) s =
      .next { s with ides := s.ides.set n { d with drvhead := v }, result := .nothing }

/-- R185, R187, R189, R191, R193, R195, R197 (the spec's decision D9: the error register is not the
features register, nor the status the command): each plain register of a selected controller,
at its key, reads as it stands; nothing changes. -/
def Obligations.SelectedRegistersRead : Prop :=
  ∀ (s : State) (n : Nat) (g : IdeConfig) (d : Ide), s.Ready → s.ide? n = some (g, d) →
    (d.drvhead.getLsbD 4).toNat = g.driveIndex →
    ∀ r ∈ [(0x3100#16, Instr.ideRdError n, d.error), (0x3200#16, .ideRdSeccnt n, d.seccount),
        (0x3300#16, .ideRdSecnum n, d.secnum), (0x3400#16, .ideRdCyllo n, d.cyllo),
        (0x3500#16, .ideRdCylhi n, d.cylhi), (0x3600#16, .ideRdDrvhead n, d.drvhead),
        (0x3700#16, .ideRdStatus n, d.status)],
      decode ⟨r.1, { dev := n }⟩ = .ok r.2.1 ∧
      exec r.2.1 s = .next { s with result := .opinion (some r.2.2) }

/-- R188, R190, R192, R194: each plain register of a selected controller, at its key, is written;
nothing else changes. -/
def Obligations.SelectedRegistersWrite : Prop :=
  ∀ (s : State) (n : Nat) (v : Byte) (g : IdeConfig) (d : Ide), s.Ready →
    s.ide? n = some (g, d) → (d.drvhead.getLsbD 4).toNat = g.driveIndex →
    ∀ r ∈ [(0xB200#16, Instr.ideWrSeccnt n v, { d with seccount := v }),
        (0xB300#16, .ideWrSecnum n v, { d with secnum := v }),
        (0xB400#16, .ideWrCyllo n v, { d with cyllo := v }),
        (0xB500#16, .ideWrCylhi n v, { d with cylhi := v })],
      decode ⟨r.1 ||| v.setWidth 16, { dev := n }⟩ = .ok r.2.1 ∧
      exec r.2.1 s = .next { s with ides := s.ides.set n r.2.2, result := .nothing }

/-- R196: drive/head is always writable, selected or not. -/
def Obligations.DriveHeadIsAlwaysWritable : Prop :=
  ∀ (s : State) (n : Nat) (v : Byte) (g : IdeConfig) (d : Ide), s.Ready →
    s.ide? n = some (g, d) →
    exec (.ideWrDrvhead n v) s =
      .next { s with ides := s.ides.set n { d with drvhead := v }, result := .nothing }

/-- R201 (the spec's decision D12): a selected data read inside the buffer returns the byte at the
cursor, advances, and keeps DRQ while bytes remain; past the end it returns a drawn byte, of which
nothing is said, and no register changes. That the model counts its draws is its own (log entry 4).
-/
def Obligations.DataPortReadsBuffer : Prop :=
  ∀ (s : State) (n : Nat) (g : IdeConfig) (d : Ide), s.Ready → s.ide? n = some (g, d) →
    (d.drvhead.getLsbD 4).toNat = g.driveIndex →
    (∀ h : d.cursor < 512, exec (.ideRdData n) s =
      .next { s with
        ides := s.ides.set n { d with
          cursor := d.cursor + 1
          status := if d.cursor + 1 < 512 then d.status ||| 0x08#8 else d.status &&& 0xF7#8 }
        result := .opinion (some d.buffer[d.cursor]) }) ∧
    (512 ≤ d.cursor → ∃ v, exec (.ideRdData n) s =
      .next { s with
        ides := s.ides.set n { d with draws := d.draws + 1 }, result := .opinion (some v) })

/-- R203, R241 (the spec's decision D13): a data write on a selected controller is refused. -/
def Obligations.SelectedDataWriteIsRefused : Prop :=
  ∀ (s : State) (n : Nat) (v : Byte) (g : IdeConfig) (d : Ide), s.Ready →
    s.ide? n = some (g, d) → (d.drvhead.getLsbD 4).toNat = g.driveIndex →
    exec (.ideWrData n v) s = .refused (.ideDataWriteUnmodelled v)

/-- R208: IDENTIFY, key 0xB7EC, fills the buffer, writes the whole status, restarts the cursor, and
leaves the error register 0x00, from any state of a selected controller. -/
def Obligations.IdentifyLoadsBuffer : Prop :=
  ∀ (s : State) (n : Nat) (g : IdeConfig) (d : Ide), s.Ready → s.ide? n = some (g, d) →
    (d.drvhead.getLsbD 4).toNat = g.driveIndex →
    decode ⟨0xB7EC#16, { dev := n }⟩ = .ok (.ideCmdIdentify n) ∧
    exec (.ideCmdIdentify n) s =
      .next { s with
        ides := s.ides.set n { d with
          buffer := identifyBlock s.config g, status := 0x58#8, cursor := 0, error := 0x00#8 }
        result := .nothing }

/-- R215, R216 (the spec's decisions D16–D18): the identify block's bytes, each word low byte first:
the geometry in words 1, 3 and 6, the product low word first at `IDENT_LBA_WORD`, the template
elsewhere. -/
def Obligations.IdentifyBlockContents : Prop :=
  ∀ (c : Config) (g : IdeConfig) (k : Nat) (hk : k < 256) (w : Nat), c.Admitted → g ∈ c.ides →
    w = (if k = 1 then g.cylinders.toNat
      else if k = 3 then g.heads.toNat
      else if k = 6 then g.sectorsPerTrack.toNat
      else if k = c.identLbaWord then
        (g.cylinders.toNat * g.heads.toNat * g.sectorsPerTrack.toNat) % 0x10000
      else if k = c.identLbaWord + 1 then
        (g.cylinders.toNat * g.heads.toNat * g.sectorsPerTrack.toNat) / 0x10000
      else c.identTemplate[k].toNat) →
    (identifyBlock c g)[2 * k].toNat = w % 0x100 ∧
    (identifyBlock c g)[2 * k + 1].toNat = w / 0x100

/-- R186, R210, R212, R213 (the spec's decisions D9, D10 and D15): the features register is written,
and SET FEATURES with the two codes it accepts, and with any other. -/
def Obligations.SetFeaturesOutcome : Prop :=
  ∀ (s : State) (n : Nat) (v : Byte) (g : IdeConfig) (d : Ide), s.Ready →
    s.ide? n = some (g, d) → (d.drvhead.getLsbD 4).toNat = g.driveIndex →
    exec (.ideWrFeatures n v) s =
      .next { s with ides := s.ides.set n { d with features := v }, result := .nothing } ∧
    exec (.ideCmdSetFeatures n) s =
      .next { s with
        ides := s.ides.set n { d with
          status :=
            if d.features = 0x01#8 ∨ d.features = 0x03#8 then d.status &&& 0xDF#8
            else (d.status ||| 0x01#8) &&& 0xDF#8
          error := 0x00#8 }
        result := .nothing }

/-- R211, R212, R213 (the spec's decision D14): an unrecognized command under the policy `abort`,
and code 0x00 under either; under the policy `refuse` the others are refused. -/
def Obligations.UnrecognizedCommandOutcome : Prop :=
  ∀ (s : State) (n : Nat) (v : Byte) (g : IdeConfig) (d : Ide), s.Ready →
    s.ide? n = some (g, d) → (d.drvhead.getLsbD 4).toNat = g.driveIndex →
    (s.config.ideUnlistedCmd = .abort ∨ v = 0x00#8 →
      exec (.ideCmdOther n v) s =
        .next { s with
          ides := s.ides.set n { d with
            status := (d.status ||| 0x01#8) &&& 0xDF#8, error := 0x00#8 }
          result := .nothing }) ∧
    (s.config.ideUnlistedCmd = .refuse → v ≠ 0x00#8 →
      exec (.ideCmdOther n v) s = .refused (.ideUnlistedCommand v))

/-- The property L1.5 (R201, R208, R214): after IDENTIFY the r-th data read returns byte r-1 of the
identify block, and DRQ is set after the first 511 reads and clear after the 512th. -/
def Obligations.IdentifyThenReadsDeliverBlock : Prop :=
  ∀ (s : State) (n : Nat) (g : IdeConfig) (d : Ide), s.Ready → s.ide? n = some (g, d) →
    (d.drvhead.getLsbD 4).toNat = g.driveIndex →
    ∀ (r : Nat) (hr : r < 512), ∃ t d',
      execAll (.ideCmdIdentify n :: List.replicate (r + 1) (.ideRdData n)) s = .next t ∧
      t.result = .opinion (some (identifyBlock s.config g)[r]) ∧ t.ides[n]? = some d' ∧
      d'.cursor = r + 1 ∧ d'.status.getLsbD 3 = decide (r + 1 < 512)

/-! ### DigitalIO -/

/-- R226, R227, R228 (the spec's decisions D24, D29): a read returns the latch; a write emits its
event and leaves the latch. -/
def Obligations.DioReadsLatchAndWritesEvent : Prop :=
  ∀ (s : State) (n : Nat) (v : Byte) (d : Dio), s.Ready → s.dios[n]? = some d →
    exec (.dioRd n) s = .next { s with result := .opinion (some d.input) } ∧
    exec (.dioWr n v) s =
      .next { s with trace := s.trace ++ [.dioOut n v], result := .nothing }

/-- R229 (D24): the host sets the latch. Where a sub-step of a read of the emulation thread is
outstanding, it runs first, as the latch is set between two transactions of that thread: that is
log entry 18's. -/
def Obligations.HostSetsDioLatch : Prop :=
  ∀ (s : State) (n : Nat) (v : Byte) (d : Dio), s.stop = .running → s.dios[n]? = some d →
    exec (.dioSetInput n v) s =
      .next { s.finishRead with dios := s.dios.set n { d with input := v }, result := .nothing } ∧
    (s.emuRest = none → s.finishRead = s)
end

