-- ==== Sys2Proof/Laws/Memory.lean ====
section
/-! SUPPORT. What a write to a byte store does: the byte written reads back, every other byte is
left alone, and the canonical form is kept. -/

namespace Sys2Proof

theorem Memory.get?_write (m : Memory) (o : Nat) (v : Byte) (x : Nat) :
    (m.write o v).get? x = if x = o then some v else m.get? x := by
  induction m with
  | nil => simp only [Memory.write, Memory.get?]
  | cons c m ih =>
    obtain ⟨a, b⟩ := c
    simp only [Memory.write]
    split
    · simp only [Memory.get?]
    · split
      · rename_i h; subst h
        simp only [Memory.get?]; split <;> rfl
      · rename_i h
        simp only [Memory.get?, ih]
        split
        · rename_i e; subst e; rw [if_neg (fun k => h k.symm)]
        · rfl

@[simp] theorem Memory.get?_write_same (m : Memory) (o : Nat) (v : Byte) :
    (m.write o v).get? o = some v := by rw [Memory.get?_write, if_pos rfl]

theorem Memory.physRead_write (m : Memory) (o : Nat) (v : Byte) (x : Nat) :
    (m.write o v).physRead x = if x = o then v else m.physRead x := by
  simp only [Memory.physRead, Memory.get?_write]
  by_cases h : x = o <;> simp only [h, if_true, if_false]

theorem Memory.above_write {k : Nat} {m : Memory} {o : Nat} {v : Byte} (hk : k < o)
    (h : Memory.above k m = true) : Memory.above k (m.write o v) = true := by
  induction m with
  | nil => simpa [Memory.write, Memory.above] using hk
  | cons c m ih =>
    obtain ⟨a, b⟩ := c
    simp only [Memory.above, List.all_cons, Bool.and_eq_true, decide_eq_true_eq] at h ih ⊢
    simp only [Memory.write]
    split
    · simp only [List.all_cons, Bool.and_eq_true, decide_eq_true_eq]; exact ⟨hk, h⟩
    · split
      · simp only [List.all_cons, Bool.and_eq_true, decide_eq_true_eq]; exact ⟨hk, h.2⟩
      · simp only [List.all_cons, Bool.and_eq_true, decide_eq_true_eq]; exact ⟨h.1, ih h.2⟩

theorem Memory.above_mono {j k : Nat} (hjk : j ≤ k) {m : Memory} (h : Memory.above k m = true) :
    Memory.above j m = true := by
  simp only [Memory.above, List.all_eq_true, decide_eq_true_eq] at h ⊢
  exact fun c hc => Nat.lt_of_le_of_lt hjk (h c hc)

/-- A write keeps the canonical form. -/
theorem Memory.wf_write {m : Memory} (o : Nat) (v : Byte) (h : m.wf = true) :
    (m.write o v).wf = true := by
  induction m with
  | nil => rfl
  | cons c m ih =>
    obtain ⟨a, b⟩ := c
    simp only [Memory.wf, Bool.and_eq_true] at h
    simp only [Memory.write]
    split
    · rename_i hlt
      have habove : Memory.above o ((a, b) :: m) = true := by
        have := Memory.above_mono (Nat.le_of_lt hlt) h.1
        simp only [Memory.above, List.all_cons, Bool.and_eq_true, decide_eq_true_eq] at this ⊢
        exact ⟨hlt, this⟩
      simp only [Memory.wf, Bool.and_eq_true]
      exact ⟨habove, h.1, h.2⟩
    · split
      · rename_i _ he; subst he
        simp only [Memory.wf, Bool.and_eq_true]
        exact h
      · rename_i hnl hne
        simp only [Memory.wf, Bool.and_eq_true]
        exact ⟨Memory.above_write (by omega) h.1, ih h.2⟩

/-- A write below a bound keeps every address below it. -/
theorem Memory.below_write {n : Nat} {m : Memory} {o : Nat} (v : Byte) (ho : o < n)
    (h : Memory.below n m = true) : Memory.below n (m.write o v) = true := by
  induction m with
  | nil => simpa [Memory.write, Memory.below] using ho
  | cons c m ih =>
    obtain ⟨a, b⟩ := c
    simp only [Memory.below, List.all_cons, Bool.and_eq_true, decide_eq_true_eq] at h ih ⊢
    simp only [Memory.write]
    split
    · simp only [List.all_cons, Bool.and_eq_true, decide_eq_true_eq]; exact ⟨ho, h⟩
    · split
      · simp only [List.all_cons, Bool.and_eq_true, decide_eq_true_eq]; exact ⟨ho, h.2⟩
      · simp only [List.all_cons, Bool.and_eq_true, decide_eq_true_eq]; exact ⟨h.1, ih h.2⟩

end Sys2Proof
end

