-- ==== Sys2Proof/Laws/State.lean ====
section
/-! SUPPORT. One lemma per field per update of the state, so that no proof unfolds an update. -/

namespace Sys2Proof.Machine

@[simp] theorem State.raise_config (s : State) (f : Fault) :
    (s.raise f).config = s.config := rfl
@[simp] theorem State.raise_bank (s : State) (f : Fault) :
    (s.raise f).bank = s.bank := rfl
@[simp] theorem State.raise_acias (s : State) (f : Fault) :
    (s.raise f).acias = s.acias := rfl
@[simp] theorem State.raise_ides (s : State) (f : Fault) :
    (s.raise f).ides = s.ides := rfl
@[simp] theorem State.raise_dios (s : State) (f : Fault) :
    (s.raise f).dios = s.dios := rfl
@[simp] theorem State.raise_trace (s : State) (f : Fault) :
    (s.raise f).trace = s.trace := rfl
@[simp] theorem State.raise_stop (s : State) (f : Fault) :
    (s.raise f).stop = .faulted f := rfl
@[simp] theorem State.raise_result (s : State) (f : Fault) :
    (s.raise f).result = s.result := rfl
@[simp] theorem State.raise_pending (s : State) (f : Fault) :
    (s.raise f).pending = s.pending := rfl
@[simp] theorem State.raise_hookReads (s : State) (f : Fault) :
    (s.raise f).hookReads = s.hookReads := rfl
@[simp] theorem State.raise_hookWrites (s : State) (f : Fault) :
    (s.raise f).hookWrites = s.hookWrites := rfl
@[simp] theorem State.raise_emuRest (s : State) (f : Fault) :
    (s.raise f).emuRest = s.emuRest := rfl
@[simp] theorem State.raise_hostRest (s : State) (f : Fault) :
    (s.raise f).hostRest = s.hostRest := rfl

@[simp] theorem State.refuse_config (s : State) (r : Refusal) :
    (s.refuse r).config = s.config := rfl
@[simp] theorem State.refuse_bank (s : State) (r : Refusal) :
    (s.refuse r).bank = s.bank := rfl
@[simp] theorem State.refuse_acias (s : State) (r : Refusal) :
    (s.refuse r).acias = s.acias := rfl
@[simp] theorem State.refuse_ides (s : State) (r : Refusal) :
    (s.refuse r).ides = s.ides := rfl
@[simp] theorem State.refuse_dios (s : State) (r : Refusal) :
    (s.refuse r).dios = s.dios := rfl
@[simp] theorem State.refuse_trace (s : State) (r : Refusal) :
    (s.refuse r).trace = s.trace := rfl
@[simp] theorem State.refuse_stop (s : State) (r : Refusal) :
    (s.refuse r).stop = .refused r := rfl
@[simp] theorem State.refuse_result (s : State) (r : Refusal) :
    (s.refuse r).result = s.result := rfl
@[simp] theorem State.refuse_pending (s : State) (r : Refusal) :
    (s.refuse r).pending = s.pending := rfl
@[simp] theorem State.refuse_hookReads (s : State) (r : Refusal) :
    (s.refuse r).hookReads = s.hookReads := rfl
@[simp] theorem State.refuse_hookWrites (s : State) (r : Refusal) :
    (s.refuse r).hookWrites = s.hookWrites := rfl
@[simp] theorem State.refuse_emuRest (s : State) (r : Refusal) :
    (s.refuse r).emuRest = s.emuRest := rfl
@[simp] theorem State.refuse_hostRest (s : State) (r : Refusal) :
    (s.refuse r).hostRest = s.hostRest := rfl

@[simp] theorem State.returning_config (s : State) (r : Result) :
    (s.returning r).config = s.config := rfl
@[simp] theorem State.returning_bank (s : State) (r : Result) :
    (s.returning r).bank = s.bank := rfl
@[simp] theorem State.returning_acias (s : State) (r : Result) :
    (s.returning r).acias = s.acias := rfl
@[simp] theorem State.returning_ides (s : State) (r : Result) :
    (s.returning r).ides = s.ides := rfl
@[simp] theorem State.returning_dios (s : State) (r : Result) :
    (s.returning r).dios = s.dios := rfl
@[simp] theorem State.returning_trace (s : State) (r : Result) :
    (s.returning r).trace = s.trace := rfl
@[simp] theorem State.returning_stop (s : State) (r : Result) :
    (s.returning r).stop = s.stop := rfl
@[simp] theorem State.returning_result (s : State) (r : Result) :
    (s.returning r).result = r := rfl
@[simp] theorem State.returning_pending (s : State) (r : Result) :
    (s.returning r).pending = s.pending := rfl
@[simp] theorem State.returning_hookReads (s : State) (r : Result) :
    (s.returning r).hookReads = s.hookReads := rfl
@[simp] theorem State.returning_hookWrites (s : State) (r : Result) :
    (s.returning r).hookWrites = s.hookWrites := rfl
@[simp] theorem State.returning_emuRest (s : State) (r : Result) :
    (s.returning r).emuRest = s.emuRest := rfl
@[simp] theorem State.returning_hostRest (s : State) (r : Result) :
    (s.returning r).hostRest = s.hostRest := rfl

@[simp] theorem State.leaveRest_config (s : State) (r : ReadRest) :
    (s.leaveRest r).config = s.config := rfl
@[simp] theorem State.leaveRest_bank (s : State) (r : ReadRest) :
    (s.leaveRest r).bank = s.bank := rfl
@[simp] theorem State.leaveRest_acias (s : State) (r : ReadRest) :
    (s.leaveRest r).acias = s.acias := rfl
@[simp] theorem State.leaveRest_ides (s : State) (r : ReadRest) :
    (s.leaveRest r).ides = s.ides := rfl
@[simp] theorem State.leaveRest_dios (s : State) (r : ReadRest) :
    (s.leaveRest r).dios = s.dios := rfl
@[simp] theorem State.leaveRest_trace (s : State) (r : ReadRest) :
    (s.leaveRest r).trace = s.trace := rfl
@[simp] theorem State.leaveRest_stop (s : State) (r : ReadRest) :
    (s.leaveRest r).stop = s.stop := rfl
@[simp] theorem State.leaveRest_result (s : State) (r : ReadRest) :
    (s.leaveRest r).result = .inFlight := rfl
@[simp] theorem State.leaveRest_pending (s : State) (r : ReadRest) :
    (s.leaveRest r).pending = s.pending := rfl
@[simp] theorem State.leaveRest_hookReads (s : State) (r : ReadRest) :
    (s.leaveRest r).hookReads = s.hookReads := rfl
@[simp] theorem State.leaveRest_hookWrites (s : State) (r : ReadRest) :
    (s.leaveRest r).hookWrites = s.hookWrites := rfl
@[simp] theorem State.leaveRest_emuRest (s : State) (r : ReadRest) :
    (s.leaveRest r).emuRest = some r := rfl
@[simp] theorem State.leaveRest_hostRest (s : State) (r : ReadRest) :
    (s.leaveRest r).hostRest = s.hostRest := rfl

@[simp] theorem State.emit_config (s : State) (e : Event) :
    (s.emit e).config = s.config := rfl
@[simp] theorem State.emit_bank (s : State) (e : Event) :
    (s.emit e).bank = s.bank := rfl
@[simp] theorem State.emit_acias (s : State) (e : Event) :
    (s.emit e).acias = s.acias := rfl
@[simp] theorem State.emit_ides (s : State) (e : Event) :
    (s.emit e).ides = s.ides := rfl
@[simp] theorem State.emit_dios (s : State) (e : Event) :
    (s.emit e).dios = s.dios := rfl
@[simp] theorem State.emit_trace (s : State) (e : Event) :
    (s.emit e).trace = s.trace ++ [e] := rfl
@[simp] theorem State.emit_stop (s : State) (e : Event) :
    (s.emit e).stop = s.stop := rfl
@[simp] theorem State.emit_result (s : State) (e : Event) :
    (s.emit e).result = s.result := rfl
@[simp] theorem State.emit_pending (s : State) (e : Event) :
    (s.emit e).pending = s.pending := rfl
@[simp] theorem State.emit_hookReads (s : State) (e : Event) :
    (s.emit e).hookReads = s.hookReads := rfl
@[simp] theorem State.emit_hookWrites (s : State) (e : Event) :
    (s.emit e).hookWrites = s.hookWrites := rfl
@[simp] theorem State.emit_emuRest (s : State) (e : Event) :
    (s.emit e).emuRest = s.emuRest := rfl
@[simp] theorem State.emit_hostRest (s : State) (e : Event) :
    (s.emit e).hostRest = s.hostRest := rfl

@[simp] theorem State.putAcia_config (s : State) (n : Nat) (a : Acia) :
    (s.putAcia n a).config = s.config := rfl
@[simp] theorem State.putAcia_bank (s : State) (n : Nat) (a : Acia) :
    (s.putAcia n a).bank = s.bank := rfl
@[simp] theorem State.putAcia_acias (s : State) (n : Nat) (a : Acia) :
    (s.putAcia n a).acias = s.acias.set n a := rfl
@[simp] theorem State.putAcia_ides (s : State) (n : Nat) (a : Acia) :
    (s.putAcia n a).ides = s.ides := rfl
@[simp] theorem State.putAcia_dios (s : State) (n : Nat) (a : Acia) :
    (s.putAcia n a).dios = s.dios := rfl
@[simp] theorem State.putAcia_trace (s : State) (n : Nat) (a : Acia) :
    (s.putAcia n a).trace = s.trace := rfl
@[simp] theorem State.putAcia_stop (s : State) (n : Nat) (a : Acia) :
    (s.putAcia n a).stop = s.stop := rfl
@[simp] theorem State.putAcia_result (s : State) (n : Nat) (a : Acia) :
    (s.putAcia n a).result = s.result := rfl
@[simp] theorem State.putAcia_pending (s : State) (n : Nat) (a : Acia) :
    (s.putAcia n a).pending = s.pending := rfl
@[simp] theorem State.putAcia_hookReads (s : State) (n : Nat) (a : Acia) :
    (s.putAcia n a).hookReads = s.hookReads := rfl
@[simp] theorem State.putAcia_hookWrites (s : State) (n : Nat) (a : Acia) :
    (s.putAcia n a).hookWrites = s.hookWrites := rfl
@[simp] theorem State.putAcia_emuRest (s : State) (n : Nat) (a : Acia) :
    (s.putAcia n a).emuRest = s.emuRest := rfl
@[simp] theorem State.putAcia_hostRest (s : State) (n : Nat) (a : Acia) :
    (s.putAcia n a).hostRest = s.hostRest := rfl

@[simp] theorem State.putIde_config (s : State) (n : Nat) (d : Ide) :
    (s.putIde n d).config = s.config := rfl
@[simp] theorem State.putIde_bank (s : State) (n : Nat) (d : Ide) :
    (s.putIde n d).bank = s.bank := rfl
@[simp] theorem State.putIde_acias (s : State) (n : Nat) (d : Ide) :
    (s.putIde n d).acias = s.acias := rfl
@[simp] theorem State.putIde_ides (s : State) (n : Nat) (d : Ide) :
    (s.putIde n d).ides = s.ides.set n d := rfl
@[simp] theorem State.putIde_dios (s : State) (n : Nat) (d : Ide) :
    (s.putIde n d).dios = s.dios := rfl
@[simp] theorem State.putIde_trace (s : State) (n : Nat) (d : Ide) :
    (s.putIde n d).trace = s.trace := rfl
@[simp] theorem State.putIde_stop (s : State) (n : Nat) (d : Ide) :
    (s.putIde n d).stop = s.stop := rfl
@[simp] theorem State.putIde_result (s : State) (n : Nat) (d : Ide) :
    (s.putIde n d).result = s.result := rfl
@[simp] theorem State.putIde_pending (s : State) (n : Nat) (d : Ide) :
    (s.putIde n d).pending = s.pending := rfl
@[simp] theorem State.putIde_hookReads (s : State) (n : Nat) (d : Ide) :
    (s.putIde n d).hookReads = s.hookReads := rfl
@[simp] theorem State.putIde_hookWrites (s : State) (n : Nat) (d : Ide) :
    (s.putIde n d).hookWrites = s.hookWrites := rfl
@[simp] theorem State.putIde_emuRest (s : State) (n : Nat) (d : Ide) :
    (s.putIde n d).emuRest = s.emuRest := rfl
@[simp] theorem State.putIde_hostRest (s : State) (n : Nat) (d : Ide) :
    (s.putIde n d).hostRest = s.hostRest := rfl

@[simp] theorem State.putDio_config (s : State) (n : Nat) (d : Dio) :
    (s.putDio n d).config = s.config := rfl
@[simp] theorem State.putDio_bank (s : State) (n : Nat) (d : Dio) :
    (s.putDio n d).bank = s.bank := rfl
@[simp] theorem State.putDio_acias (s : State) (n : Nat) (d : Dio) :
    (s.putDio n d).acias = s.acias := rfl
@[simp] theorem State.putDio_ides (s : State) (n : Nat) (d : Dio) :
    (s.putDio n d).ides = s.ides := rfl
@[simp] theorem State.putDio_dios (s : State) (n : Nat) (d : Dio) :
    (s.putDio n d).dios = s.dios.set n d := rfl
@[simp] theorem State.putDio_trace (s : State) (n : Nat) (d : Dio) :
    (s.putDio n d).trace = s.trace := rfl
@[simp] theorem State.putDio_stop (s : State) (n : Nat) (d : Dio) :
    (s.putDio n d).stop = s.stop := rfl
@[simp] theorem State.putDio_result (s : State) (n : Nat) (d : Dio) :
    (s.putDio n d).result = s.result := rfl
@[simp] theorem State.putDio_pending (s : State) (n : Nat) (d : Dio) :
    (s.putDio n d).pending = s.pending := rfl
@[simp] theorem State.putDio_hookReads (s : State) (n : Nat) (d : Dio) :
    (s.putDio n d).hookReads = s.hookReads := rfl
@[simp] theorem State.putDio_hookWrites (s : State) (n : Nat) (d : Dio) :
    (s.putDio n d).hookWrites = s.hookWrites := rfl
@[simp] theorem State.putDio_emuRest (s : State) (n : Nat) (d : Dio) :
    (s.putDio n d).emuRest = s.emuRest := rfl
@[simp] theorem State.putDio_hostRest (s : State) (n : Nat) (d : Dio) :
    (s.putDio n d).hostRest = s.hostRest := rfl

@[simp] theorem State.putBankNumber_config (s : State) (b : Byte) :
    (s.putBankNumber b).config = s.config := rfl
@[simp] theorem State.putBankNumber_bank (s : State) (b : Byte) :
    (s.putBankNumber b).bank = { s.bank with bank := b } := rfl
@[simp] theorem State.putBankNumber_acias (s : State) (b : Byte) :
    (s.putBankNumber b).acias = s.acias := rfl
@[simp] theorem State.putBankNumber_ides (s : State) (b : Byte) :
    (s.putBankNumber b).ides = s.ides := rfl
@[simp] theorem State.putBankNumber_dios (s : State) (b : Byte) :
    (s.putBankNumber b).dios = s.dios := rfl
@[simp] theorem State.putBankNumber_trace (s : State) (b : Byte) :
    (s.putBankNumber b).trace = s.trace := rfl
@[simp] theorem State.putBankNumber_stop (s : State) (b : Byte) :
    (s.putBankNumber b).stop = s.stop := rfl
@[simp] theorem State.putBankNumber_result (s : State) (b : Byte) :
    (s.putBankNumber b).result = s.result := rfl
@[simp] theorem State.putBankNumber_pending (s : State) (b : Byte) :
    (s.putBankNumber b).pending = s.pending := rfl
@[simp] theorem State.putBankNumber_hookReads (s : State) (b : Byte) :
    (s.putBankNumber b).hookReads = s.hookReads := rfl
@[simp] theorem State.putBankNumber_hookWrites (s : State) (b : Byte) :
    (s.putBankNumber b).hookWrites = s.hookWrites := rfl
@[simp] theorem State.putBankNumber_emuRest (s : State) (b : Byte) :
    (s.putBankNumber b).emuRest = s.emuRest := rfl
@[simp] theorem State.putBankNumber_hostRest (s : State) (b : Byte) :
    (s.putBankNumber b).hostRest = s.hostRest := rfl

@[simp] theorem State.physWrite_config (s : State) (o : Nat) (v : Byte) :
    (s.physWrite o v).config = s.config := rfl
@[simp] theorem State.physWrite_bank (s : State) (o : Nat) (v : Byte) :
    (s.physWrite o v).bank = { s.bank with phys := s.bank.phys.write o v } := rfl
@[simp] theorem State.physWrite_acias (s : State) (o : Nat) (v : Byte) :
    (s.physWrite o v).acias = s.acias := rfl
@[simp] theorem State.physWrite_ides (s : State) (o : Nat) (v : Byte) :
    (s.physWrite o v).ides = s.ides := rfl
@[simp] theorem State.physWrite_dios (s : State) (o : Nat) (v : Byte) :
    (s.physWrite o v).dios = s.dios := rfl
@[simp] theorem State.physWrite_trace (s : State) (o : Nat) (v : Byte) :
    (s.physWrite o v).trace = s.trace := rfl
@[simp] theorem State.physWrite_stop (s : State) (o : Nat) (v : Byte) :
    (s.physWrite o v).stop = s.stop := rfl
@[simp] theorem State.physWrite_result (s : State) (o : Nat) (v : Byte) :
    (s.physWrite o v).result = s.result := rfl
@[simp] theorem State.physWrite_pending (s : State) (o : Nat) (v : Byte) :
    (s.physWrite o v).pending = s.pending := rfl
@[simp] theorem State.physWrite_hookReads (s : State) (o : Nat) (v : Byte) :
    (s.physWrite o v).hookReads = s.hookReads := rfl
@[simp] theorem State.physWrite_hookWrites (s : State) (o : Nat) (v : Byte) :
    (s.physWrite o v).hookWrites = s.hookWrites := rfl
@[simp] theorem State.physWrite_emuRest (s : State) (o : Nat) (v : Byte) :
    (s.physWrite o v).emuRest = s.emuRest := rfl
@[simp] theorem State.physWrite_hostRest (s : State) (o : Nat) (v : Byte) :
    (s.physWrite o v).hostRest = s.hostRest := rfl

end Sys2Proof.Machine
end

