-- ==== Sys2Proof/Laws/Ops.lean ====
section
/-! SUPPORT. For each shared operation, one lemma that says what it does, so that a proof about a
transaction cites it and does not unfold the operation. -/

namespace Sys2Proof.Machine

/-! ### Outcomes -/

theorem State.outcome_of_running {s : State} (h : s.stop = .running) : s.outcome = .next s := by
  simp only [State.outcome, h]

/-- A state's outcome is a next state only while it runs, and then it is the state itself. -/
theorem State.outcome_eq_next {s t : State} :
    s.outcome = .next t ↔ s.stop = .running ∧ s = t := by
  unfold State.outcome
  split <;> rename_i h <;> simp [h]

@[simp] theorem State.raise_outcome (s : State) (f : Fault) : (s.raise f).outcome = .fault f := rfl

@[simp] theorem State.refuse_outcome (s : State) (r : Refusal) :
    (s.refuse r).outcome = .refused r := rfl

theorem State.transact_of_running {s : State} (h : s.stop = .running) (body : State → State) :
    s.transact body = (body s).outcome := by
  simp only [State.transact, h]

/-- What a transaction that answers a next state has done. -/
theorem State.transact_eq_next {s t : State} {body : State → State} :
    s.transact body = .next t ↔ s.stop = .running ∧ body s = t ∧ t.stop = .running := by
  unfold State.transact
  split
  · rename_i h
    rw [State.outcome_eq_next]
    constructor
    · rintro ⟨h1, rfl⟩; exact ⟨h, rfl, h1⟩
    · rintro ⟨_, rfl, h1⟩; exact ⟨h1, rfl⟩
  · rename_i h; simp [h]
  · rename_i h; simp [h]

/-- A stopped state has no step (rule R53). -/
theorem State.transact_of_stopped {s : State} (h : s.stop ≠ .running) (body : State → State)
    (t : State) : s.transact body ≠ .next t := by
  rw [Ne, State.transact_eq_next]
  exact fun k => h k.1

/-! ### Outstanding sub-steps -/

theorem State.finishRead_of_none {s : State} (h : s.emuRest = none) : s.finishRead = s := by
  simp only [State.finishRead, h]

theorem State.finishReceive_of_none {s : State} (h : s.hostRest = none) :
    s.finishReceive = s := by
  simp only [State.finishReceive, h]

theorem State.emulation_of_ready {s : State} (h : s.Ready) (body : State → State) :
    s.emulation body = (body s).outcome := by
  simp only [State.emulation, State.transact_of_running h.1, State.finishRead_of_none h.2]

theorem State.emulation_eq_next {s t : State} {body : State → State} :
    s.emulation body = .next t ↔
      s.stop = .running ∧ body s.finishRead = t ∧ t.stop = .running :=
  State.transact_eq_next

/-! ### Write and read transactions -/

theorem State.performWrite_ok {s t : State} (h : s.Ready) {rule : State → Except Refusal State}
    (hr : rule s = .ok t) (ht : t.stop = .running) :
    s.performWrite rule = .next (t.returning .nothing) := by
  simp only [State.performWrite, State.emulation_of_ready h, State.settleWrite, hr]
  exact State.outcome_of_running ht

theorem State.performWrite_error {s : State} (h : s.Ready) {rule : State → Except Refusal State}
    {r : Refusal} (hr : rule s = .error r) : s.performWrite rule = .refused r := by
  simp only [State.performWrite, State.emulation_of_ready h, State.settleWrite, hr]
  rfl

theorem State.performRead_answered {s t : State} {o : Option Byte} (h : s.Ready)
    {rule : State → Except Refusal ReadStep} (hr : rule s = .ok (.answered t o))
    (ht : t.stop = .running) : s.performRead rule = .next (t.returning (.opinion o)) := by
  simp only [State.performRead, State.emulation_of_ready h, hr]
  exact State.outcome_of_running ht

theorem State.performRead_split {s t : State} {k : Taken} (h : s.Ready)
    {rule : State → Except Refusal ReadStep} (hr : rule s = .ok (.split t k))
    (ht : t.stop = .running) : s.performRead rule = .next (t.leaveRest (.settle k none)) := by
  simp only [State.performRead, State.emulation_of_ready h, hr]
  exact State.outcome_of_running ht

theorem State.performRead_error {s : State} {r : Refusal} (h : s.Ready)
    {rule : State → Except Refusal ReadStep} (hr : rule s = .error r) :
    s.performRead rule = .refused r := by
  simp only [State.performRead, State.emulation_of_ready h, hr]
  rfl

/-! ### The device records -/

theorem State.withAcia_ok {s t : State} {dev : Nat} {f : Acia → Acia} :
    s.withAcia dev f = .ok t ↔ ∃ a, s.acias[dev]? = some a ∧ t = s.putAcia dev (f a) := by
  unfold State.withAcia
  split
  · rename_i a h
    simp only [Except.ok.injEq, h, Option.some.injEq, exists_eq_left', eq_comm]
  · rename_i h; simp [h]

theorem State.ide?_eq {s : State} {n : Nat} {g : IdeConfig} {d : Ide} :
    s.ide? n = some (g, d) ↔ s.config.ides[n]? = some g ∧ s.ides[n]? = some d := by
  unfold State.ide?
  split
  · rename_i h1 h2; simp [h1, h2]
  · rename_i h
    refine ⟨fun k => by simp at k, fun k => absurd k.2 ?_⟩
    exact fun e => h g d k.1 e

/-- A gated write drops the write or writes the selected controller's registers. -/
theorem writeIdeGated_ok {f : IdeConfig → Ide → Ide} {dev : Nat} {s t : State} :
    writeIdeGated f dev s = .ok t ↔ ∃ g d, s.ide? dev = some (g, d) ∧
      t = if driveSelected d.drvhead g.driveIndex then s.putIde dev (f g d) else s := by
  unfold writeIdeGated
  split
  · rename_i h; simp [h]
  · rename_i g d h
    simp only [h, Option.some.injEq, Prod.mk.injEq]
    constructor
    · intro k
      refine ⟨g, d, ⟨rfl, rfl⟩, ?_⟩
      split at k <;> rename_i hs <;> simp only [Except.ok.injEq] at k <;> simp [hs, k]
    · rintro ⟨g', d', ⟨rfl, rfl⟩, rfl⟩
      split <;> rfl

/-! ### The CPU window -/

theorem hookRead_absent {s : State} (h : s.config.memHook = false) : hookRead s = (none, s) := by
  simp [hookRead, h]

theorem hookWrite_absent {s : State} (h : s.config.memHook = false) :
    hookWrite s = (false, s) := by
  simp [hookWrite, h]

/-- The hook consumes one of its answers and changes nothing else. -/
theorem hookRead_state (s : State) : ∃ l, (hookRead s).2 = { s with hookReads := l } := by
  unfold hookRead
  split
  · split
    · exact ⟨s.hookReads, rfl⟩
    · exact ⟨_, rfl⟩
  · exact ⟨s.hookReads, rfl⟩

theorem hookWrite_state (s : State) : ∃ l, (hookWrite s).2 = { s with hookWrites := l } := by
  unfold hookWrite
  split
  · split
    · exact ⟨s.hookWrites, rfl⟩
    · exact ⟨_, rfl⟩
  · exact ⟨s.hookWrites, rfl⟩

theorem cpuRead_absent {s : State} (h : s.config.memHook = false) (a : U16) :
    cpuRead s a =
      if physOff s.config s.bank.bank a < s.config.size then
        (s, .ok (s.physRead (physOff s.config s.bank.bank a)))
      else (s, .error (.bankOutOfRange a s.bank.bank)) := by
  simp only [cpuRead, hookRead_absent h]

theorem cpuWrite_absent {s : State} (h : s.config.memHook = false) (a : U16) (v : Byte) :
    cpuWrite s a v =
      if physOff s.config s.bank.bank a < s.config.size then
        (s.physWrite (physOff s.config s.bank.bank a) v, none)
      else (s, some (.bankOutOfRange a s.bank.bank)) := by
  simp only [cpuWrite, hookWrite_absent h]

/-- A CPU-window read changes nothing but the hook's coming answers, whether or not it faults. -/
theorem cpuRead_state (s : State) (a : U16) :
    ∃ l, (cpuRead s a).1 = { s with hookReads := l } := by
  obtain ⟨l, hl⟩ := hookRead_state s
  refine ⟨l, ?_⟩
  rw [← hl]
  unfold cpuRead
  split
  · rename_i k; rw [k]
  · rename_i k
    rw [k]
    split <;> rfl

/-- A CPU-window write is taken by the hook, or stores one byte inside physical memory, or faults
and stores nothing. -/
theorem cpuWrite_state (s : State) (a : U16) (v : Byte) :
    ∃ l, (cpuWrite s a v).1 = { s with hookWrites := l } ∨
      (physOff s.config s.bank.bank a < s.config.size ∧
        (cpuWrite s a v).1 =
          { s with hookWrites := l }.physWrite (physOff s.config s.bank.bank a) v) := by
  obtain ⟨l, hl⟩ := hookWrite_state s
  refine ⟨l, ?_⟩
  unfold cpuWrite
  split
  · rename_i k
    rw [k] at hl
    exact .inl hl
  · rename_i k
    rw [k] at hl
    simp only at hl
    subst hl
    split
    · rename_i hlt
      exact .inr ⟨hlt, rfl⟩
    · exact .inl rfl

/-- A bulk read changes nothing but the hook's coming answers, whether or not it faults. -/
theorem fetchBytes_state (s : State) (a n : Nat) :
    ∃ l, (fetchBytes s a n).1 = { s with hookReads := l } := by
  induction n generalizing s a with
  | zero => exact ⟨s.hookReads, rfl⟩
  | succ n ih =>
    obtain ⟨l, hl⟩ := cpuRead_state s (BitVec.ofNat 16 a)
    unfold fetchBytes
    split
    · rename_i k
      rw [k] at hl
      exact ⟨l, hl⟩
    · rename_i t b k
      rw [k] at hl
      simp only at hl
      subst hl
      exact ih _ _

/-! ### What a device's rule can do -/

/-- Everything a device's read can do when it answers: nothing, a data read of an ACIA's queue, a
data read of the sector buffer, or a draw past its end. -/
theorem deviceRead_answered {atomic : Bool} {d : DeviceRef} {off : Nat} {s t : State}
    {o : Option Byte} (h : deviceRead atomic d off s = .ok (.answered t o)) :
    t = s ∨
    (∃ n a b q, d = .acia n ∧ off = 1 ∧ atomic = true ∧ s.acias[n]? = some a ∧ a.rxq = b :: q ∧
      t = s.putAcia n (aciaReadHead b q a)) ∨
    (∃ n g e, d = .ide n ∧ off = 0 ∧ s.ide? n = some (g, e) ∧ e.cursor < 512 ∧
      t = s.putIde n { e with
        cursor := e.cursor + 1, status := statusAfterSectorRead (e.cursor + 1) e.status }) ∨
    (∃ n g e, d = .ide n ∧ off = 0 ∧ s.ide? n = some (g, e) ∧
      t = s.putIde n { e with draws := e.draws + 1 }) := by
  have plain : ∀ {reg : Ide → Byte} {n : Nat}, readIdeRegister reg n s = .ok (.answered t o) →
      t = s := by
    intro reg n k
    unfold readIdeRegister at k
    split at k
    · simp at k
    · split at k <;> simp only [Except.ok.injEq, ReadStep.answered.injEq] at k <;> exact k.1.symm
  cases d with
  | bank =>
    simp only [deviceRead, readBank, Except.ok.injEq, ReadStep.answered.injEq] at h
    exact .inl h.1.symm
  | dio n =>
    simp only [deviceRead, readDio] at h
    split at h
    · simp only [Except.ok.injEq, ReadStep.answered.injEq] at h; exact .inl h.1.symm
    · simp at h
  | acia n =>
    simp only [deviceRead, aciaReadAt] at h
    split at h
    · unfold readAciaStatus at h
      split at h
      · simp only [Except.ok.injEq, ReadStep.answered.injEq] at h; exact .inl h.1.symm
      · simp at h
    · unfold readAciaData at h
      split at h
      · simp at h
      · rename_i a ha
        split at h
        · simp only [Except.ok.injEq, ReadStep.answered.injEq] at h; exact .inl h.1.symm
        · rename_i b q hq
          split at h
          · rename_i hat
            simp only [Except.ok.injEq, ReadStep.answered.injEq] at h
            exact .inr (.inl ⟨n, a, b, q, rfl, rfl, hat, ha, hq, h.1.symm⟩)
          · simp at h
    · simp only [Except.ok.injEq, ReadStep.answered.injEq] at h; exact .inl h.1.symm
  | ide n =>
    simp only [deviceRead, ideReadAt] at h
    split at h
    · unfold readIdeData at h
      split at h
      · simp at h
      · rename_i g e he
        split at h
        · split at h
          · rename_i hc
            simp only [Except.ok.injEq, ReadStep.answered.injEq] at h
            exact .inr (.inr (.inl ⟨n, g, e, rfl, rfl, he, hc, h.1.symm⟩))
          · simp only [Except.ok.injEq, ReadStep.answered.injEq] at h
            exact .inr (.inr (.inr ⟨n, g, e, rfl, rfl, he, h.1.symm⟩))
        · simp only [Except.ok.injEq, ReadStep.answered.injEq] at h; exact .inl h.1.symm
    all_goals first
      | exact .inl (plain h)
      | (simp only [Except.ok.injEq, ReadStep.answered.injEq] at h; exact .inl h.1.symm)

/-- A device's read splits only at an ACIA's sub-step rd.a. -/
theorem deviceRead_split {atomic : Bool} {d : DeviceRef} {off : Nat} {s t : State} {k : Taken}
    (h : deviceRead atomic d off s = .ok (.split t k)) :
    ∃ n a b q, d = .acia n ∧ off = 1 ∧ atomic = false ∧ s.acias[n]? = some a ∧ a.rxq = b :: q ∧
      t = s.putAcia n (aciaTake b q a) ∧ k = ⟨n, q.isEmpty, b⟩ := by
  have plain : ∀ {reg : Ide → Byte} {n : Nat}, readIdeRegister reg n s ≠ .ok (.split t k) := by
    intro reg n e
    unfold readIdeRegister at e
    split at e
    · simp at e
    · split at e <;> simp at e
  cases d with
  | bank => simp [deviceRead, readBank] at h
  | dio n =>
    simp only [deviceRead, readDio] at h
    split at h <;> simp at h
  | acia n =>
    simp only [deviceRead, aciaReadAt] at h
    split at h
    · unfold readAciaStatus at h
      split at h <;> simp at h
    · unfold readAciaData at h
      split at h
      · simp at h
      · rename_i a ha
        split at h
        · simp at h
        · rename_i b q hq
          split at h
          · simp at h
          · rename_i hat
            simp only [Except.ok.injEq, ReadStep.split.injEq] at h
            exact ⟨n, a, b, q, rfl, rfl, by simpa using hat, ha, hq, h.1.symm, h.2.symm⟩
    · simp at h
  | ide n =>
    simp only [deviceRead, ideReadAt] at h
    split at h
    · unfold readIdeData at h
      split at h
      · simp at h
      · split at h
        · split at h <;> simp at h
        · simp at h
    all_goals first
      | exact absurd h plain
      | simp at h

/-! ### The port read's loop -/

/-- What a device's read can write when it answers: the ACIA and the IDE records. -/
theorem deviceRead_frame {atomic : Bool} {d : DeviceRef} {off : Nat} {s t : State}
    {o : Option Byte} (h : deviceRead atomic d off s = .ok (.answered t o)) :
    ∃ as is, t = { s with acias := as, ides := is } := by
  rcases deviceRead_answered h with
    rfl | ⟨n, a, b, q, -, -, -, -, -, rfl⟩ | ⟨n, g, c, -, -, -, -, rfl⟩ |
      ⟨n, g, c, -, -, -, rfl⟩ <;> exact ⟨_, _, rfl⟩

/-- What a port read can write: the ACIA and IDE records, the result, and the rest it leaves. -/
theorem busReadFrom_frame (atomic : Bool) (p : U16) (ds : List Installed) (acc : Byte) (s : State) :
    ∃ as is r e, busReadFrom atomic p ds acc s =
      { s with acias := as, ides := is, result := r, emuRest := e } := by
  induction ds generalizing acc s with
  | nil => exact ⟨s.acias, s.ides, _, s.emuRest, rfl⟩
  | cons d ds ih =>
    unfold busReadFrom
    split
    · exact ih _ _
    · split
      · exact ih _ _
      · rename_i h
        obtain ⟨as, is, rfl⟩ := deviceRead_frame h
        split
        · exact ⟨as, is, _, _, rfl⟩
        · exact ih _ { s with acias := as, ides := is }
      · rename_i h
        obtain ⟨n, a, b, q, -, -, -, -, -, rfl, rfl⟩ := deviceRead_split h
        exact ⟨_, s.ides, _, _, rfl⟩

/-- With `atomic` a port read runs to its end: it returns a byte and leaves nothing outstanding that
was not. -/
theorem busReadFrom_atomic (p : U16) (ds : List Installed) (acc : Byte) (s : State) :
    (busReadFrom true p ds acc s).emuRest = s.emuRest ∧
      ∃ v, (busReadFrom true p ds acc s).result = .byte v := by
  induction ds generalizing acc s with
  | nil => exact ⟨rfl, acc, rfl⟩
  | cons d ds ih =>
    unfold busReadFrom
    split
    · exact ih _ _
    · split
      · exact ih _ _
      · rename_i h
        obtain ⟨as, is, rfl⟩ := deviceRead_frame h
        exact ih _ _
      · rename_i h
        obtain ⟨n, a, b, q, -, -, hf, -⟩ := deviceRead_split h
        cases hf

/-- A port read that no device left matches returns what it has. -/
theorem busReadFrom_unmatched {atomic : Bool} {p : U16} {ds : List Installed} {acc : Byte}
    {s : State} (h : ∀ d ∈ ds, matchPort s.config d p = none) :
    busReadFrom atomic p ds acc s = s.returning (.byte acc) := by
  induction ds with
  | nil => rfl
  | cons d ds ih =>
    unfold busReadFrom
    rw [h d List.mem_cons_self]
    exact ih fun e he => h e (List.mem_cons_of_mem d he)

/-- A port read passes over the devices that do not match. -/
theorem busReadFrom_append {atomic : Bool} {p : U16} {xs ys : List Installed} {acc : Byte}
    {s : State} (h : ∀ d ∈ xs, matchPort s.config d p = none) :
    busReadFrom atomic p (xs ++ ys) acc s = busReadFrom atomic p ys acc s := by
  induction xs with
  | nil => rfl
  | cons d ds ih =>
    rw [List.cons_append]
    conv => lhs; unfold busReadFrom
    rw [h d List.mem_cons_self]
    exact ih fun e he => h e (List.mem_cons_of_mem d he)

theorem State.updateAcia_frame (s : State) (n : Nat) (f : Acia → Acia) :
    ∃ as, s.updateAcia n f = { s with acias := as } := by
  unfold State.updateAcia
  split
  · exact ⟨_, rfl⟩
  · exact ⟨s.acias, rfl⟩

theorem State.settleRead_frame (s : State) (k : Taken) :
    ∃ as, s.settleRead k = { s with acias := as, emuRest := none } :=
  State.updateAcia_frame { s with emuRest := none } k.dev (aciaSettleRead k.empty)

/-- What running an outstanding sub-step of a read can write. -/
theorem resumeRead_frame (atomic : Bool) (r : ReadRest) (s : State) :
    ∃ as is x e, resumeRead atomic r s =
      { s with acias := as, ides := is, result := x, emuRest := e } := by
  unfold resumeRead
  split
  · exact busReadFrom_frame atomic _ _ _ { s with emuRest := none }
  · rename_i k
    obtain ⟨as, h⟩ := State.settleRead_frame s k
    exact ⟨as, s.ides, _, none, by rw [h]; rfl⟩
  · rename_i k b
    obtain ⟨as, h⟩ := State.settleRead_frame s k
    rw [h]
    split
    · exact ⟨as, s.ides, _, _, rfl⟩
    · exact busReadFrom_frame atomic _ _ _ { s with acias := as, emuRest := none }

/-- What finishing the emulation thread's read can write. -/
theorem State.finishRead_frame (s : State) :
    ∃ as is x e, s.finishRead = { s with acias := as, ides := is, result := x, emuRest := e } := by
  unfold State.finishRead
  split
  · exact ⟨s.acias, s.ides, s.result, s.emuRest, rfl⟩
  · exact resumeRead_frame true _ s

end Sys2Proof.Machine
end

