-- ==== Sys2Proof/Laws/Acia.lean ====
section
/-! SUPPORT. The ACIA's register transforms with their masks evaluated: the rows of
spec/42_acia.md rules R159 and R161. -/

namespace Sys2Proof.Machine

theorem setRdrfIrq (x : Byte) : setBits (setBits x rdrf) irq = x ||| 0x81#8 := by
  simp only [setBits, rdrf, irq, BitVec.or_assoc]
  congr 1

theorem clearRdrfIrq (x : Byte) : clearBits x (rdrf ||| irq) = x &&& 0x7E#8 := by
  simp only [clearBits]
  congr 1

/-- Rule R159, for the flags a sub-step rd.b leaves. -/
theorem aciaSettleRead_eq (a : Acia) (e : Bool) :
    aciaSettleRead e a =
      if e = true then { a with status := a.status &&& 0x7E#8, irqLine := false }
      else if a.control.getLsbD 7 = true then
        { a with status := a.status ||| 0x81#8, irqLine := true }
      else { a with status := a.status ||| 0x01#8 } := by
  unfold aciaSettleRead statusAfterDataRead lineAfterDataRead
  rw [setRdrfIrq, clearRdrfIrq, rie]
  generalize a.control.getLsbD 7 = r
  cases e <;> cases r <;>
    simp only [Bool.false_eq_true, if_true, if_false, setBits, rdrf]

/-- Rule R159, whole. -/
theorem aciaReadHead_eq (a : Acia) (b : Byte) (q : List Byte) :
    aciaReadHead b q a =
      if q = [] then
        { a with hold := b, rxq := [], status := a.status &&& 0x7E#8, irqLine := false }
      else if a.control.getLsbD 7 = true then
        { a with hold := b, rxq := q, status := a.status ||| 0x81#8, irqLine := true }
      else { a with hold := b, rxq := q, status := a.status ||| 0x01#8 } := by
  cases q with
  | nil => simp only [aciaReadHead, aciaTake, aciaSettleRead_eq, List.isEmpty_nil, if_true]
  | cons x q =>
    simp only [aciaReadHead, aciaTake, aciaSettleRead_eq, List.isEmpty_cons, Bool.false_eq_true,
      if_false, reduceCtorEq]

/-- Rule R161, for the flags a sub-step rx.b leaves. -/
theorem aciaSettleReceive_eq (a : Acia) :
    aciaSettleReceive a =
      if a.control.getLsbD 7 = true then
        { a with status := a.status ||| 0x81#8, irqLine := true }
      else { a with status := a.status ||| 0x01#8 } := by
  unfold aciaSettleReceive statusAfterReceive lineAfterReceive
  rw [setRdrfIrq, rie]
  generalize a.control.getLsbD 7 = r
  cases r <;> simp only [Bool.false_eq_true, if_true, if_false, setBits, rdrf]

/-- Rule R161, whole. -/
theorem aciaReceive_eq (a : Acia) (v : Byte) :
    aciaReceive v a =
      if a.control.getLsbD 7 = true then
        { a with rxq := a.rxq ++ [v], status := a.status ||| 0x81#8, irqLine := true }
      else { a with rxq := a.rxq ++ [v], status := a.status ||| 0x01#8 } := by
  simp only [aciaReceive, aciaEnqueue, aciaSettleReceive_eq]

end Sys2Proof.Machine
end

