-- ==== Sys2Proof/Laws/Canonical.lean ====
section
/-! SUPPORT. Every operation on physical memory keeps its canonical form and its range, and the reset
state's memory has both. -/

namespace Sys2Proof.Machine

/-- Physical memory is in canonical form and inside `Size` (spec/20_memory.md rule R63). -/
abbrev State.Canonical (s : State) : Prop :=
  s.bank.phys.wf = true ∧ Memory.below s.config.size s.bank.phys = true

theorem State.physWrite_canonical {s : State} {o : Nat} (v : Byte) (ho : o < s.config.size)
    (h : s.Canonical) : (s.physWrite o v).Canonical :=
  ⟨Memory.wf_write o v h.1, Memory.below_write v ho h.2⟩

theorem cpuRead_canonical (s : State) (a : U16) (hc : s.Canonical) : (cpuRead s a).1.Canonical := by
  obtain ⟨l, h⟩ := cpuRead_state s a
  rw [h]
  exact hc

theorem cpuWrite_canonical (s : State) (a : U16) (v : Byte) (hc : s.Canonical) :
    (cpuWrite s a v).1.Canonical := by
  obtain ⟨l, h | ⟨hlt, h⟩⟩ := cpuWrite_state s a v <;> rw [h]
  · exact hc
  · exact State.physWrite_canonical v hlt hc

/-- Whether it completes or stops at a byte. -/
theorem storeBytes_canonical {s : State} (a : Nat) (bs : List Byte) (hc : s.Canonical) :
    (storeBytes s a bs).1.Canonical := by
  induction bs generalizing s a with
  | nil => exact hc
  | cons b bs ih =>
    have hb := cpuWrite_canonical s (BitVec.ofNat 16 a) b hc
    unfold storeBytes
    split <;> rename_i h <;> rw [h] at hb
    · exact ih (a + 1) hb
    · exact hb

theorem fetchBytes_canonical (s : State) (a n : Nat) (hc : s.Canonical) :
    (fetchBytes s a n).1.Canonical := by
  obtain ⟨l, h⟩ := fetchBytes_state s a n
  rw [h]
  exact hc

theorem State.reset_canonical : State.reset.Canonical := ⟨rfl, rfl⟩

end Sys2Proof.Machine
end

