-- ==== Sys2Proof/Laws/Exec.lean ====
section
/-! SUPPORT. What each arm of `exec` runs: the shared operation and the device rule, so that a proof
rewrites with one lemma and does not unfold `exec`. -/

namespace Sys2Proof.Machine

theorem exec_busRead (port : U16) (s : State) :
    exec (.busRead port) s =
      s.emulation fun t =>
        busReadFrom (!splitsRead t.config port) port t.config.devices 0xFF#8 t := rfl

theorem exec_busWrite (port : U16) (v : Byte) (s : State) :
    exec (.busWrite port v) s =
      s.performWrite fun t => busWriteFrom port v t.config.devices t := rfl

theorem exec_bankWrSelect (v : Byte) (s : State) :
    exec (.bankWrSelect v) s =
      s.performWrite (writeBank v) := rfl

theorem exec_bankRd (s : State) :
    exec .bankRd s =
      s.performRead readBank := rfl

theorem exec_aciaWrCtrlMr (dev : Nat) (v : Byte) (s : State) :
    exec (.aciaWrCtrlMr dev v) s =
      s.performWrite (writeAciaMasterReset dev v) := rfl

theorem exec_aciaWrCtrl (dev : Nat) (v : Byte) (s : State) :
    exec (.aciaWrCtrl dev v) s =
      s.performWrite (writeAciaConfigure dev v) := rfl

theorem exec_aciaWrData (dev : Nat) (v : Byte) (s : State) :
    exec (.aciaWrData dev v) s =
      s.performWrite (writeAciaData dev v) := rfl

theorem exec_aciaRdStatus (dev : Nat) (s : State) :
    exec (.aciaRdStatus dev) s =
      s.performRead (readAciaStatus dev) := rfl

theorem exec_aciaRdData (dev : Nat) (s : State) :
    exec (.aciaRdData dev) s =
      s.performRead fun t => readAciaData t.config.rxAtomic dev t := rfl

theorem exec_ideRdData (dev : Nat) (s : State) :
    exec (.ideRdData dev) s =
      s.performRead (readIdeData dev) := rfl

theorem exec_ideRdError (dev : Nat) (s : State) :
    exec (.ideRdError dev) s =
      s.performRead (readIdeError dev) := rfl

theorem exec_ideRdSeccnt (dev : Nat) (s : State) :
    exec (.ideRdSeccnt dev) s =
      s.performRead (readIdeSeccnt dev) := rfl

theorem exec_ideRdSecnum (dev : Nat) (s : State) :
    exec (.ideRdSecnum dev) s =
      s.performRead (readIdeSecnum dev) := rfl

theorem exec_ideRdCyllo (dev : Nat) (s : State) :
    exec (.ideRdCyllo dev) s =
      s.performRead (readIdeCyllo dev) := rfl

theorem exec_ideRdCylhi (dev : Nat) (s : State) :
    exec (.ideRdCylhi dev) s =
      s.performRead (readIdeCylhi dev) := rfl

theorem exec_ideRdDrvhead (dev : Nat) (s : State) :
    exec (.ideRdDrvhead dev) s =
      s.performRead (readIdeDrvhead dev) := rfl

theorem exec_ideRdStatus (dev : Nat) (s : State) :
    exec (.ideRdStatus dev) s =
      s.performRead (readIdeStatus dev) := rfl

theorem exec_ideWrData (dev : Nat) (v : Byte) (s : State) :
    exec (.ideWrData dev v) s =
      s.performWrite (writeIdeData dev v) := rfl

theorem exec_ideWrFeatures (dev : Nat) (v : Byte) (s : State) :
    exec (.ideWrFeatures dev v) s =
      s.performWrite (writeIdeFeatures dev v) := rfl

theorem exec_ideWrSeccnt (dev : Nat) (v : Byte) (s : State) :
    exec (.ideWrSeccnt dev v) s =
      s.performWrite (writeIdeSeccnt dev v) := rfl

theorem exec_ideWrSecnum (dev : Nat) (v : Byte) (s : State) :
    exec (.ideWrSecnum dev v) s =
      s.performWrite (writeIdeSecnum dev v) := rfl

theorem exec_ideWrCyllo (dev : Nat) (v : Byte) (s : State) :
    exec (.ideWrCyllo dev v) s =
      s.performWrite (writeIdeCyllo dev v) := rfl

theorem exec_ideWrCylhi (dev : Nat) (v : Byte) (s : State) :
    exec (.ideWrCylhi dev v) s =
      s.performWrite (writeIdeCylhi dev v) := rfl

theorem exec_ideWrDrvhead (dev : Nat) (v : Byte) (s : State) :
    exec (.ideWrDrvhead dev v) s =
      s.performWrite (writeIdeDrvhead dev v) := rfl

theorem exec_ideCmdIdentify (dev : Nat) (s : State) :
    exec (.ideCmdIdentify dev) s =
      s.performWrite (ideIdentify dev) := rfl

theorem exec_ideCmdSetFeatures (dev : Nat) (s : State) :
    exec (.ideCmdSetFeatures dev) s =
      s.performWrite (ideSetFeatures dev) := rfl

theorem exec_ideCmdOther (dev : Nat) (v : Byte) (s : State) :
    exec (.ideCmdOther dev v) s =
      s.performWrite (ideUnrecognized dev v) := rfl

theorem exec_dioRd (dev : Nat) (s : State) :
    exec (.dioRd dev) s =
      s.performRead (readDio dev) := rfl

theorem exec_dioWr (dev : Nat) (v : Byte) (s : State) :
    exec (.dioWr dev v) s =
      s.performWrite (writeDio dev v) := rfl

theorem exec_memRead (addr : U16) (s : State) :
    exec (.memRead addr) s =
      s.emulation fun t => match cpuRead t addr with
      | (u, .ok b) => u.returning (.byte b)
      | (u, .error f) => u.raise f := rfl

theorem exec_memWrite (addr : U16) (v : Byte) (s : State) :
    exec (.memWrite addr v) s =
      s.emulation fun t => match cpuWrite t addr v with
      | (u, none) => u.returning .nothing
      | (u, some f) => u.raise f := rfl

theorem exec_memGetContents (start : Int) (buffer : List Byte) (index len : Int) (s : State) :
    exec (.memGetContents start buffer index len) s =
      s.emulation (getContents start buffer index len) := rfl

theorem exec_memSetContents (start : Int) (buffer : List Byte) (index len : Int) (s : State) :
    exec (.memSetContents start buffer index len) s =
      s.emulation (setContents start buffer index len) := rfl

theorem exec_rxData (dev : Nat) (v : Byte) (s : State) :
    exec (.rxData dev v) s =
      s.transact fun t => receive dev v t.finishReceive := rfl

theorem exec_irqQuery (dev : Nat) (s : State) :
    exec (.irqQuery dev) s =
      s.emulation fun t => match t.acias[dev]? with
      | some a => t.returning (.flag a.irqLine)
      | none => t.refuse (.noSuchDevice .acia dev) := rfl

theorem exec_dioSetInput (dev : Nat) (v : Byte) (s : State) :
    exec (.dioSetInput dev v) s =
      s.performWrite (setDioInput dev v) := rfl

/-- Every transaction runs as one body from a running state. -/
theorem exec_is_transact (i : Instr) :
    ∃ body : State → State, ∀ s, exec i s = s.transact body := by
  cases i <;> exact ⟨_, fun _ => rfl⟩

/-- A transaction of a running state that meets no stop answers the state its body leaves. -/
theorem exec_next_running {i : Instr} {s t : State} (h : exec i s = .next t) :
    s.stop = .running ∧ t.stop = .running := by
  obtain ⟨body, hb⟩ := exec_is_transact i
  rw [hb, State.transact_eq_next] at h
  exact ⟨h.1, h.2.2⟩

end Sys2Proof.Machine
end

