-- ==== Sys2Proof/Laws/PerInstr.lean ====
section
/-! SUPPORT. The family `EncodedKey` of statements about every instruction: the key a well-formed
transaction encodes to is covered by a row of the opcode table that builds the transaction back. That
no other row takes the key first is the decoder's own statement. -/

namespace Sys2Proof.Laws

/-- A byte in the low half of a key comes back out of it. -/
theorem keyValue_mkKey (d : BitVec 1) (u : BitVec 3) (o : BitVec 4) (v : Byte) :
    keyValue (mkKey d u o v) = v := by
  ext i hi
  simp only [keyValue, mkKey, BitVec.getElem_extractLsb', Nat.zero_add]
  exact (BitVec.getLsbD_append (x := d ++ u ++ o) (y := v)).trans (by simp [hi])

/-- A key's high half, whatever value it carries. -/
theorem mkKey_high (d : BitVec 1) (u : BitVec 3) (o : BitVec 4) (v : Byte) :
    mkKey d u o v &&& 0xFF00#16 = mkKey d u o 0#8 := by
  refine BitVec.eq_of_getLsbD_eq fun i hi => ?_
  have hm : ∀ j : Fin 16, (0xFF00#16).getLsbD j.val = decide (8 ≤ j.val) := by decide
  have hk : ∀ w : Byte, (mkKey d u o w).getLsbD i =
      if i < 8 then w.getLsbD i else (d ++ u ++ o).getLsbD (i - 8) := fun w =>
    BitVec.getLsbD_append
  rw [BitVec.getLsbD_and, hm ⟨i, hi⟩, hk, hk]
  by_cases h : i < 8 <;> simp [h]
  omega

/-- A well-formed transaction's key is covered by a row that builds the transaction back. -/
def EncodedKey.Statement (i : Instr) : Prop :=
  i.WellFormed → ∃ r ∈ rows, r.covers (encode i).key = true ∧
    r.build (keyValue (encode i).key) (encode i).operands = i

/-- How each case is shown: the row at index `n` of the table. -/
theorem EncodedKey.of_row {i : Instr} (n : Nat) (r : Row) (h : rows[n]? = some r)
    (hc : i.WellFormed → r.covers (encode i).key = true)
    (hb : r.build (keyValue (encode i).key) (encode i).operands = i) : EncodedKey.Statement i :=
  fun hw => ⟨r, List.mem_of_getElem? h, hc hw, hb⟩

/-- A row whose mask is the high half covers the keys of its direction, unit and selector. -/
theorem covers_anyValue (r : Row) (d : BitVec 1) (u : BitVec 3) (o : BitVec 4) (v : Byte)
    (hm : r.mask = 0xFF00#16) (hp : r.pattern = mkKey d u o 0#8) :
    r.covers (mkKey d u o v) = true := by
  simp only [Row.covers, hm, hp, mkKey_high, beq_self_eq_true]

/-- A row whose mask is the whole key covers its own key. -/
theorem covers_exact (r : Row) (k : U16) (hm : r.mask = 0xFFFF#16) (hp : r.pattern = k) :
    r.covers k = true := by
  have : k &&& 0xFFFF#16 = k := BitVec.and_allOnes
  simp only [Row.covers, hm, hp, this, beq_self_eq_true]

theorem EncodedKey.busRead (p : U16) : EncodedKey.Statement (.busRead p) :=
  EncodedKey.of_row 0 _ rfl (fun _ => covers_exact _ _ rfl rfl)
  (rfl)

theorem EncodedKey.busWrite (p : U16) (v : Byte) : EncodedKey.Statement (.busWrite p v) :=
  EncodedKey.of_row 1 _ rfl (fun _ => covers_anyValue _ _ _ _ _ rfl rfl)
  (by
    simp only [encode, keyValue_mkKey])

theorem EncodedKey.bankWrSelect (v : Byte) : EncodedKey.Statement (.bankWrSelect v) :=
  EncodedKey.of_row 2 _ rfl (fun _ => covers_anyValue _ _ _ _ _ rfl rfl)
  (by
    simp only [encode, keyValue_mkKey])

theorem EncodedKey.bankRd : EncodedKey.Statement (.bankRd) :=
  EncodedKey.of_row 3 _ rfl (fun _ => covers_exact _ _ rfl rfl)
  (rfl)

theorem EncodedKey.aciaWrCtrlMr (d : Nat) (v : Byte) : EncodedKey.Statement (.aciaWrCtrlMr d v) :=
  EncodedKey.of_row 4 _ rfl (fun h => by
    simp only [Instr.WellFormed, Instr.illFormed] at h
    simp only [Row.covers, encode]
    revert v
    decide)
  (by
    simp only [encode, keyValue_mkKey])

theorem EncodedKey.aciaWrCtrl (d : Nat) (v : Byte) : EncodedKey.Statement (.aciaWrCtrl d v) :=
  EncodedKey.of_row 5 _ rfl (fun _ => covers_anyValue _ _ _ _ _ rfl rfl)
  (by
    simp only [encode, keyValue_mkKey])

theorem EncodedKey.aciaWrData (d : Nat) (v : Byte) : EncodedKey.Statement (.aciaWrData d v) :=
  EncodedKey.of_row 6 _ rfl (fun _ => covers_anyValue _ _ _ _ _ rfl rfl)
  (by
    simp only [encode, keyValue_mkKey])

theorem EncodedKey.aciaRdStatus (d : Nat) : EncodedKey.Statement (.aciaRdStatus d) :=
  EncodedKey.of_row 7 _ rfl (fun _ => covers_exact _ _ rfl rfl)
  (rfl)

theorem EncodedKey.aciaRdData (d : Nat) : EncodedKey.Statement (.aciaRdData d) :=
  EncodedKey.of_row 8 _ rfl (fun _ => covers_exact _ _ rfl rfl)
  (rfl)

theorem EncodedKey.ideRdData (d : Nat) : EncodedKey.Statement (.ideRdData d) :=
  EncodedKey.of_row 9 _ rfl (fun _ => covers_exact _ _ rfl rfl)
  (rfl)

theorem EncodedKey.ideRdError (d : Nat) : EncodedKey.Statement (.ideRdError d) :=
  EncodedKey.of_row 10 _ rfl (fun _ => covers_exact _ _ rfl rfl)
  (rfl)

theorem EncodedKey.ideRdSeccnt (d : Nat) : EncodedKey.Statement (.ideRdSeccnt d) :=
  EncodedKey.of_row 11 _ rfl (fun _ => covers_exact _ _ rfl rfl)
  (rfl)

theorem EncodedKey.ideRdSecnum (d : Nat) : EncodedKey.Statement (.ideRdSecnum d) :=
  EncodedKey.of_row 12 _ rfl (fun _ => covers_exact _ _ rfl rfl)
  (rfl)

theorem EncodedKey.ideRdCyllo (d : Nat) : EncodedKey.Statement (.ideRdCyllo d) :=
  EncodedKey.of_row 13 _ rfl (fun _ => covers_exact _ _ rfl rfl)
  (rfl)

theorem EncodedKey.ideRdCylhi (d : Nat) : EncodedKey.Statement (.ideRdCylhi d) :=
  EncodedKey.of_row 14 _ rfl (fun _ => covers_exact _ _ rfl rfl)
  (rfl)

theorem EncodedKey.ideRdDrvhead (d : Nat) : EncodedKey.Statement (.ideRdDrvhead d) :=
  EncodedKey.of_row 15 _ rfl (fun _ => covers_exact _ _ rfl rfl)
  (rfl)

theorem EncodedKey.ideRdStatus (d : Nat) : EncodedKey.Statement (.ideRdStatus d) :=
  EncodedKey.of_row 16 _ rfl (fun _ => covers_exact _ _ rfl rfl)
  (rfl)

theorem EncodedKey.ideWrData (d : Nat) (v : Byte) : EncodedKey.Statement (.ideWrData d v) :=
  EncodedKey.of_row 17 _ rfl (fun _ => covers_anyValue _ _ _ _ _ rfl rfl)
  (by
    simp only [encode, keyValue_mkKey])

theorem EncodedKey.ideWrFeatures (d : Nat) (v : Byte) : EncodedKey.Statement (.ideWrFeatures d v) :=
  EncodedKey.of_row 18 _ rfl (fun _ => covers_anyValue _ _ _ _ _ rfl rfl)
  (by
    simp only [encode, keyValue_mkKey])

theorem EncodedKey.ideWrSeccnt (d : Nat) (v : Byte) : EncodedKey.Statement (.ideWrSeccnt d v) :=
  EncodedKey.of_row 19 _ rfl (fun _ => covers_anyValue _ _ _ _ _ rfl rfl)
  (by
    simp only [encode, keyValue_mkKey])

theorem EncodedKey.ideWrSecnum (d : Nat) (v : Byte) : EncodedKey.Statement (.ideWrSecnum d v) :=
  EncodedKey.of_row 20 _ rfl (fun _ => covers_anyValue _ _ _ _ _ rfl rfl)
  (by
    simp only [encode, keyValue_mkKey])

theorem EncodedKey.ideWrCyllo (d : Nat) (v : Byte) : EncodedKey.Statement (.ideWrCyllo d v) :=
  EncodedKey.of_row 21 _ rfl (fun _ => covers_anyValue _ _ _ _ _ rfl rfl)
  (by
    simp only [encode, keyValue_mkKey])

theorem EncodedKey.ideWrCylhi (d : Nat) (v : Byte) : EncodedKey.Statement (.ideWrCylhi d v) :=
  EncodedKey.of_row 22 _ rfl (fun _ => covers_anyValue _ _ _ _ _ rfl rfl)
  (by
    simp only [encode, keyValue_mkKey])

theorem EncodedKey.ideWrDrvhead (d : Nat) (v : Byte) : EncodedKey.Statement (.ideWrDrvhead d v) :=
  EncodedKey.of_row 23 _ rfl (fun _ => covers_anyValue _ _ _ _ _ rfl rfl)
  (by
    simp only [encode, keyValue_mkKey])

theorem EncodedKey.ideCmdIdentify (d : Nat) : EncodedKey.Statement (.ideCmdIdentify d) :=
  EncodedKey.of_row 24 _ rfl (fun _ => covers_exact _ _ rfl rfl)
  (rfl)

theorem EncodedKey.ideCmdSetFeatures (d : Nat) : EncodedKey.Statement (.ideCmdSetFeatures d) :=
  EncodedKey.of_row 25 _ rfl (fun _ => covers_exact _ _ rfl rfl)
  (rfl)

theorem EncodedKey.ideCmdOther (d : Nat) (v : Byte) : EncodedKey.Statement (.ideCmdOther d v) :=
  EncodedKey.of_row 26 _ rfl (fun _ => covers_anyValue _ _ _ _ _ rfl rfl)
  (by
    simp only [encode, keyValue_mkKey])

theorem EncodedKey.dioRd (d : Nat) : EncodedKey.Statement (.dioRd d) :=
  EncodedKey.of_row 27 _ rfl (fun _ => covers_exact _ _ rfl rfl)
  (rfl)

theorem EncodedKey.dioWr (d : Nat) (v : Byte) : EncodedKey.Statement (.dioWr d v) :=
  EncodedKey.of_row 28 _ rfl (fun _ => covers_anyValue _ _ _ _ _ rfl rfl)
  (by
    simp only [encode, keyValue_mkKey])

theorem EncodedKey.memRead (a : U16) : EncodedKey.Statement (.memRead a) :=
  EncodedKey.of_row 29 _ rfl (fun _ => covers_exact _ _ rfl rfl)
  (rfl)

theorem EncodedKey.memWrite (a : U16) (v : Byte) : EncodedKey.Statement (.memWrite a v) :=
  EncodedKey.of_row 30 _ rfl (fun _ => covers_anyValue _ _ _ _ _ rfl rfl)
  (by
    simp only [encode, keyValue_mkKey])

theorem EncodedKey.memGetContents (a : Int) (b : List Byte) (i l : Int) : EncodedKey.Statement (.memGetContents a b i l) :=
  EncodedKey.of_row 31 _ rfl (fun _ => covers_exact _ _ rfl rfl)
  (rfl)

theorem EncodedKey.memSetContents (a : Int) (b : List Byte) (i l : Int) : EncodedKey.Statement (.memSetContents a b i l) :=
  EncodedKey.of_row 32 _ rfl (fun _ => covers_exact _ _ rfl rfl)
  (rfl)

theorem EncodedKey.rxData (d : Nat) (v : Byte) : EncodedKey.Statement (.rxData d v) :=
  EncodedKey.of_row 33 _ rfl (fun _ => covers_anyValue _ _ _ _ _ rfl rfl)
  (by
    simp only [encode, keyValue_mkKey])

theorem EncodedKey.irqQuery (d : Nat) : EncodedKey.Statement (.irqQuery d) :=
  EncodedKey.of_row 34 _ rfl (fun _ => covers_exact _ _ rfl rfl)
  (rfl)

theorem EncodedKey.dioSetInput (d : Nat) (v : Byte) : EncodedKey.Statement (.dioSetInput d v) :=
  EncodedKey.of_row 35 _ rfl (fun _ => covers_anyValue _ _ _ _ _ rfl rfl)
  (by
    simp only [encode, keyValue_mkKey])

end Sys2Proof.Laws
end

