-- ==== Sys2Proof/Tests/Slice0.lean ====
section
/-! SUPPORT. The model's own tests: expected values from spec/95_test_vectors.md (V<n>, L1.<n>, P<n>
name the vector or program), or from the rule named; and for every statement of
Certificates/Slice0/Obligations.lean that has hypotheses a witness that meets them. -/

open Sys2Proof Sys2Proof.Machine

namespace Sys2Proof.Tests

/-! ### Boards and states -/

/-- Board B of spec/95_test_vectors.md with a template the tests can read: word `k` is `0x5A00 + k`. -/
def boardT : Config :=
  { Config.boardB with
    ideStoreSectors := 4, identTemplate := Vector.ofFn fun k => 0x5A00#16 + BitVec.ofNat 16 k.val }

/-- Board O: the ACIA and the DigitalIO at one base. -/
def boardO : Config :=
  { boardT with
    devices := [⟨0x78#16, .bank⟩, ⟨0x10#16, .ide 0⟩, ⟨0x80#16, .acia 0⟩, ⟨0x80#16, .dio 0⟩] }

/-- Board P: the master/slave pair. -/
def boardP : Config :=
  { boardT with
    devices := [⟨0x78#16, .bank⟩, ⟨0x10#16, .ide 0⟩, ⟨0x10#16, .ide 1⟩]
    ides := [⟨0, 980#16, 10#16, 32#16⟩, ⟨1, 100#16, 4#16, 16#16⟩] }

/-- Two ACIAs at one base, with `RX_ATOMIC` false. -/
def boardA : Config :=
  { boardT with
    devices := [⟨0x78#16, .bank⟩, ⟨0x10#16, .ide 0⟩, ⟨0x80#16, .acia 0⟩, ⟨0x80#16, .acia 1⟩]
    rxAtomic := false }

/-- Board B with `RX_ATOMIC` false. -/
def boardR : Config := { boardT with rxAtomic := false }

/-- Power-on of Board B. -/
def base : State := State.powerOn boardT

/-- Power-on of a board with its ACIA as given. -/
def withAcia (c : Config) (a : Acia) : State := { State.powerOn c with acias := [a] }

/-- Power-on of Board B with its IDE controller as given. -/
def withIde (d : Ide) : State := { base with ides := [d] }

/-- Board B with a bank selected. -/
def inBank (b : Byte) : State := base.putBankNumber b

/-- An IDE controller at power-on. -/
def ide0 : Ide := idePowerOn boardT

/-- What a function sees of the next state, if the outcome is one. -/
def seen {α : Type} (f : State → α) : Outcome → Option α
  | .next t => some (f t)
  | _ => none

/-- The fault of an outcome, if it is one. -/
def faultOf : Outcome → Option Fault
  | .fault f => some f
  | _ => none

/-- The refusal of an outcome, if it is one. -/
def refusalOf : Outcome → Option Refusal
  | .refused r => some r
  | _ => none

/-! ### Well-formedness -/

theorem test_illFormed_masterReset : (Instr.aciaWrCtrlMr 0 0x02#8).illFormed = some .notMasterReset := by
  decide
theorem test_illFormed_configure : (Instr.aciaWrCtrl 0 0x83#8).illFormed = some .isMasterReset := by
  decide
theorem test_illFormed_command :
    (Instr.ideCmdOther 0 0xEC#8).illFormed = some .listedCommand ∧
    (Instr.ideCmdOther 0 0xEF#8).illFormed = some .listedCommand := by decide

/-- Every condition refuses a board that fails it and no condition before it (V31, V32 and D31). -/
theorem test_config_oneBankedMemory :
    { boardT with devices := [⟨0x80#16, .acia 0⟩, ⟨0x10#16, .ide 0⟩] }.failed =
      some .oneBankedMemory := by decide
theorem test_config_bankSizes_V31 : { boardT with bankSize := 0x4000 }.failed = some .bankSizes := by
  decide
theorem test_config_bankSizes_V32 : { boardT with size := 0x8000 }.failed = some .bankSizes := by
  decide
theorem test_config_portRange :
    { boardT with devices := [⟨0x78#16, .bank⟩, ⟨0xFFF9#16, .ide 0⟩] }.failed = some .portRange := by
  decide
theorem test_config_driveIndex :
    { boardT with ides := [⟨2, 980#16, 10#16, 32#16⟩] }.failed = some .driveIndex := by decide
theorem test_config_geometryProduct :
    { boardT with ides := [⟨0, 0xFFFF#16, 0xFFFF#16, 2#16⟩] }.failed = some .geometryProduct := by
  decide
theorem test_config_statusResetDrq :
    { boardT with ideStatusReset := 0x08#8 }.failed = some .statusResetDrq := by decide
theorem test_config_lbaWord :
    { boardT with identLbaWord := 255 }.failed = some .lbaWord ∧
    { boardT with identLbaWord := 5 }.failed = some .lbaWord := by decide
theorem test_config_deviceNumbers :
    { boardT with devices := [⟨0x78#16, .bank⟩, ⟨0x80#16, .acia 1⟩, ⟨0x10#16, .ide 0⟩] }.failed =
      some .deviceNumbers := by decide
theorem test_config_memInit :
    { boardT with memInit := [(2, 0x00#8), (1, 0x00#8)] }.failed = some .memInit := by decide
theorem test_config_admitted :
    Config.boardB.failed = none ∧ boardT.failed = none ∧ boardO.failed = none ∧
    boardP.failed = none ∧
    { boardT with size := 0x20000, bankSize := 0x10000 }.failed = none := by decide

/-! ### Decoding: keys written out field by field, D then U then O then V (rule R101) -/

theorem test_decode_bus :
    decodeTableWord 16 0b0000000000000000 = some (.busRead 0#16) ∧
    decodeTableWord 16 0b1000000001010101 = some (.busWrite 0#16 0x55#8) := by decide
theorem test_decode_bank :
    decodeTableWord 16 0b1001000000000101 = some (.bankWrSelect 0x05#8) ∧
    decodeTableWord 16 0b0001000000000000 = some .bankRd := by decide
theorem test_decode_acia_write :
    decodeTableWord 16 0b1010000010000011 = some (.aciaWrCtrlMr 0 0x83#8) ∧
    decodeTableWord 16 0b1010000010010110 = some (.aciaWrCtrl 0 0x96#8) ∧
    decodeTableWord 16 0b1010000101000001 = some (.aciaWrData 0 0x41#8) := by decide
theorem test_decode_acia_read :
    decodeTableWord 16 0b0010000000000000 = some (.aciaRdStatus 0) ∧
    decodeTableWord 16 0b0010000100000000 = some (.aciaRdData 0) := by decide
theorem test_decode_ide_read :
    decodeTableWord 16 0b0011000000000000 = some (.ideRdData 0) ∧
    decodeTableWord 16 0b0011000100000000 = some (.ideRdError 0) ∧
    decodeTableWord 16 0b0011001000000000 = some (.ideRdSeccnt 0) ∧
    decodeTableWord 16 0b0011001100000000 = some (.ideRdSecnum 0) ∧
    decodeTableWord 16 0b0011010000000000 = some (.ideRdCyllo 0) ∧
    decodeTableWord 16 0b0011010100000000 = some (.ideRdCylhi 0) ∧
    decodeTableWord 16 0b0011011000000000 = some (.ideRdDrvhead 0) ∧
    decodeTableWord 16 0b0011011100000000 = some (.ideRdStatus 0) := by decide
theorem test_decode_ide_write :
    decodeTableWord 16 0b1011000001010101 = some (.ideWrData 0 0x55#8) ∧
    decodeTableWord 16 0b1011000100000011 = some (.ideWrFeatures 0 0x03#8) ∧
    decodeTableWord 16 0b1011001000000001 = some (.ideWrSeccnt 0 0x01#8) ∧
    decodeTableWord 16 0b1011001100000101 = some (.ideWrSecnum 0 0x05#8) ∧
    decodeTableWord 16 0b1011010000110100 = some (.ideWrCyllo 0 0x34#8) ∧
    decodeTableWord 16 0b1011010100010010 = some (.ideWrCylhi 0 0x12#8) ∧
    decodeTableWord 16 0b1011011011100000 = some (.ideWrDrvhead 0 0xE0#8) := by decide
theorem test_decode_ide_command :
    decodeTableWord 16 0b1011011111101100 = some (.ideCmdIdentify 0) ∧
    decodeTableWord 16 0b1011011111101111 = some (.ideCmdSetFeatures 0) ∧
    decodeTableWord 16 0b1011011100100000 = some (.ideCmdOther 0 0x20#8) := by decide
theorem test_decode_dio :
    decodeTableWord 16 0b0100000000000000 = some (.dioRd 0) ∧
    decodeTableWord 16 0b1100000010000001 = some (.dioWr 0 0x81#8) := by decide
theorem test_decode_mem :
    decodeTableWord 16 0b0101000000000000 = some (.memRead 0#16) ∧
    decodeTableWord 16 0b1101000010101011 = some (.memWrite 0#16 0xAB#8) ∧
    decodeTableWord 16 0b0101000100000000 = some (.memGetContents 0 [] 0 0) ∧
    decodeTableWord 16 0b1101000100000000 = some (.memSetContents 0 [] 0 0) := by decide
theorem test_decode_side :
    decodeTableWord 16 0b1110000001001000 = some (.rxData 0 0x48#8) ∧
    decodeTableWord 16 0b0110000100000000 = some (.irqQuery 0) ∧
    decodeTableWord 16 0b1110001001011010 = some (.dioSetInput 0 0x5A#8) := by decide
/-- V97–V100 and the wrong-direction keys, each with the name it is refused under. -/
theorem test_decode_invalid :
    [0x7000#16, 0xF000#16].map keyError = [.reservedUnit, .reservedUnit] ∧
    [0x2200#16, 0xA200#16, 0xE300#16, 0x5200#16, 0x0100#16, 0x8100#16, 0x9100#16].map keyError =
      List.replicate 7 .noSuchSelector ∧
    keyError 0x2001#16 = .readCarriesValue ∧ keyError 0xD101#16 = .bulkCarriesValue ∧
    [0x6000#16, 0x6200#16, 0xE100#16].map keyError = List.replicate 3 .wrongDirection := by decide
/-- The operands travel beside the key (rule R101). -/
theorem test_decode_operands :
    decode ⟨0xA1FF#16, { dev := 3 }⟩ = .ok (.aciaWrData 3 0xFF#8) ∧
    decode ⟨0x8012#16, { port := 0x1280#16 }⟩ = .ok (.busWrite 0x1280#16 0x12#8) ∧
    decode ⟨0xD001#16, { addr := 0xFFFF#16 }⟩ = .ok (.memWrite 0xFFFF#16 0x01#8) := ⟨rfl, rfl, rfl⟩

/-! ### One step each: the bus -/

/-- V1 and V4–V6: no device matches. -/
theorem test_busRead_unmatched :
    [0x05#16, 0x0F#16, 0x18#16, 0x82#16].map (fun p => seen State.result (exec (.busRead p) base)) =
      List.replicate 4 (some (.byte 0xFF#8)) := by decide
/-- V8: the AND of two answers. -/
theorem test_busRead_and :
    seen State.result (exec (.busRead 0x80#16)
      { withAcia boardO { aciaPowerOn with status := 0x83#8 } with dios := [⟨0x0F#8⟩] }) =
      some (.byte 0x03#8) := by decide
/-- V7: which address bits are compared. -/
theorem test_portMask :
    seen State.result (exec (.busRead 0x1280#16) (withAcia boardT { aciaPowerOn with status := 0x02#8 })) =
      some (.byte 0xFF#8) ∧
    seen State.result (exec (.busRead 0x1280#16)
      (withAcia { boardT with portMask := 0x00FF#16 } { aciaPowerOn with status := 0x02#8 })) =
      some (.byte 0x02#8) := by decide
/-- V2 and V10: a write no device owns, and a write two devices own. -/
theorem test_busWrite :
    seen State.trace (exec (.busWrite 0x05#16 0x12#8) base) = some [] ∧
    seen (fun t => (t.acias.map fun a => (a.control, a.status), t.trace))
      (exec (.busWrite 0x80#16 0x96#8) (State.powerOn boardO)) =
      some ([(0x96#8, 0x02#8)], [.dioOut 0 0x96#8]) := by decide
/-- V84: the pair at one base, where both take the drive/head write and one runs the command. -/
theorem test_busWrite_pair :
    seen (fun t => t.ides.map fun d => (d.drvhead, d.status))
      (execAll [.busWrite 0x16#16 0x10#8, .busWrite 0x17#16 0xEC#8] (State.powerOn boardP)) =
      some [(0x10#8, 0x50#8), (0x10#8, 0x58#8)] := by decide

/-! ### BankedMemory -/

/-- V11–V13. -/
theorem test_bankWrSelect :
    [0x02#8, 0x03#8, 0xFF#8].map (fun v => seen (fun t => t.bank.bank) (exec (.bankWrSelect v) base)) =
      [some 0x01#8, some 0x01#8, some 0x7F#8] := by decide
/-- V14: the port reads as the floating bus. -/
theorem test_bankRd :
    seen State.result (exec .bankRd (inBank 0x05#8)) = some (.opinion none) ∧
    seen State.result (exec (.busRead 0x78#16) (inBank 0x05#8)) = some (.byte 0xFF#8) := by decide
/-- V15–V18: the last byte of the window, the first and the last of upper RAM. -/
theorem test_physOff :
    [0x0010#16, 0x7FFF#16, 0x8000#16, 0xFFFF#16].map (physOff boardT 0x01#8) =
      [0x8010, 0xFFFF, 0xF8000, 0xFFFFF] := by decide
/-- V30: no upper region. -/
theorem test_physOff_whole :
    physOff { boardT with size := 0x20000, bankSize := 0x10000 } 0x01#8 0xFFFF#16 = 0x1FFFF := by
  decide
/-- V19: bank 31 and upper RAM share their bytes. -/
theorem test_memWrite_aliases :
    seen State.result (execAll [.memWrite 0x0000#16 0x5A#8, .memRead 0x8000#16] (inBank 0x1F#8)) =
      some (.byte 0x5A#8) := by decide
/-- V20 and V21: past `Size` an access faults, and upper RAM does not. -/
theorem test_memRead_range :
    faultOf (exec (.memRead 0x0000#16) (inBank 0x20#8)) = some (.bankOutOfRange 0x0000#16 0x20#8) ∧
    (seen (fun _ => ()) (exec (.memRead 0x8000#16) (inBank 0x20#8))) = some () := by decide
/-- P1: the bank scenario, its third bank select excepted. -/
theorem test_memWrite_bank :
    seen (fun t => t.bank.phys) (execAll [.bankWrSelect 0x02#8, .memWrite 0x0010#16 0xAB#8] base) =
      some [(0x8010, 0xAB#8)] := by decide
/-- V22 and V27: the end of the window, and a span from the banked window into upper RAM. -/
theorem test_memSetContents :
    seen (fun t => (t.result, t.bank.phys)) (exec (.memSetContents 0xFFFE [0x01#8, 0x02#8] 0 2) base) =
      some (.ok, [(0xFFFFE, 0x01#8), (0xFFFFF, 0x02#8)]) ∧
    seen (fun t => t.bank.phys) (exec (.memSetContents 0x7FFF [0xAA#8, 0xBB#8] 0 2) (inBank 0x01#8)) =
      some [(0xFFFF, 0xAA#8), (0xF8000, 0xBB#8)] := by decide
/-- V23–V26 and V28: the arguments' check, the empty span, and a byte past `Size`. -/
theorem test_memSetContents_checks :
    [Instr.memSetContents 0xFFFF [0x01#8, 0x02#8] 0 2,
     .memSetContents 0x100 [0x01#8, 0x02#8, 0x03#8] (-1) 1,
     .memSetContents 0x100 [0x01#8, 0x02#8, 0x03#8] 2 2,
     .memSetContents 0x100 [] 0 0].map
      (fun i => seen (fun t => (t.result, t.bank.phys)) (exec i base)) =
      [some (.outOfRange, []), some (.outOfRange, []), some (.outOfRange, []), some (.ok, [])] ∧
    faultOf (exec (.memSetContents 0x7FFF [0xAA#8] 0 1) (inBank 0x20#8)) =
      some (.bankOutOfRange 0x7FFF#16 0x20#8) := by decide
/-- V29, into the middle of a caller's buffer. -/
theorem test_memGetContents :
    seen State.result (exec (.memGetContents 0x7FFF [0x01#8, 0x02#8, 0x03#8, 0x04#8] 1 2)
      { inBank 0x01#8 with bank := ⟨0x01#8, [(0xFFFF, 0xAA#8), (0xF8000, 0xBB#8)]⟩ }) =
      some (.contents [0x01#8, 0xAA#8, 0xBB#8, 0x04#8]) := by decide
/-- R143: the bytes before a faulting one are in the buffer of the state the stop marks, and the
hook's answers they took are taken. -/
theorem test_memGetContents_fault :
    let t := getContents 0x3FFF [0x01#8, 0x02#8, 0x03#8] 1 2
      { State.powerOn { boardT with size := 0x14000, memHook := true } with
        bank := ⟨0x02#8, []⟩, hookReads := [some 0x77#8, none, none] }
    (t.result, t.stop, t.hookReads) =
      (.contents [0x01#8, 0x77#8, 0x03#8], .faulted (.bankOutOfRange 0x4000#16 0x02#8), [none]) := by
  decide
/-- R134: the hook's answers come before the mapping, and a declined access goes on. -/
theorem test_memHook :
    seen (fun t => (t.result, t.hookReads)) (exec (.memRead 0x0000#16)
      { base with
        config := { boardT with memHook := true }, bank := ⟨0x20#8, []⟩, hookReads := [some 0x77#8] }) =
      some (.byte 0x77#8, []) ∧
    seen (fun t => (t.bank.phys, t.hookWrites)) (execAll [.memWrite 0x0001#16 0x11#8, .memWrite 0x0002#16 0x22#8]
      { base with config := { boardT with memHook := true }, hookWrites := [true, false] }) =
      some ([(2, 0x22#8)], []) := by decide

/-! ### ACIA -/

/-- V34, and L1.1: the stored control value. -/
theorem test_aciaWrCtrlMr :
    seen (fun t => t.acias.map fun a => (a.control, a.status)) (exec (.aciaWrCtrlMr 0 0xFF#8)
      (withAcia boardT { aciaPowerOn with status := 0x02#8 })) = some [(0xFF#8, 0x00#8)] := by decide
/-- V49: the queue stays, and the line falls only under the parameter. -/
theorem test_aciaWrCtrlMr_line :
    let a : Acia := ⟨0x96#8, 0x83#8, 0x00#8, [0x55#8, 0x56#8], true⟩
    seen State.acias (exec (.aciaWrCtrlMr 0 0x03#8) (withAcia boardT a)) =
      some [⟨0x03#8, 0x00#8, 0x00#8, [0x55#8, 0x56#8], true⟩] ∧
    seen State.acias (exec (.aciaWrCtrlMr 0 0x03#8)
      (withAcia { boardT with aciaMrClearsIrqLine := true } a)) =
      some [⟨0x03#8, 0x00#8, 0x00#8, [0x55#8, 0x56#8], false⟩] := by decide
/-- V44 and V46: changing RIE neither asserts nor withdraws. -/
theorem test_aciaWrCtrl :
    seen State.acias (exec (.aciaWrCtrl 0 0x96#8)
      (withAcia boardT ⟨0x16#8, 0x03#8, 0x00#8, [0x55#8], false⟩)) =
      some [⟨0x96#8, 0x03#8, 0x00#8, [0x55#8], false⟩] ∧
    seen State.acias (exec (.aciaWrCtrl 0 0x16#8)
      (withAcia boardT ⟨0x96#8, 0x83#8, 0x00#8, [0x55#8], true⟩)) =
      some [⟨0x16#8, 0x83#8, 0x00#8, [0x55#8], true⟩] := by decide
/-- V53: a data write sets TDRE after a master reset. -/
theorem test_aciaWrData :
    seen (fun t => (t.acias.map Acia.status, t.trace)) (exec (.aciaWrData 0 0x20#8)
      (withAcia boardT ⟨0x83#8, 0x81#8, 0x00#8, [0x10#8], true⟩)) =
      some ([0x83#8], [.txByte 0 0x20#8]) := by decide
/-- V33 and the status of P2 line 7. -/
theorem test_aciaRdStatus :
    seen State.result (exec (.aciaRdStatus 0) base) = some (.opinion (some 0x00#8)) ∧
    seen State.result (exec (.aciaRdStatus 0) (withAcia boardT { aciaPowerOn with status := 0x83#8 })) =
      some (.opinion (some 0x83#8)) := by decide
/-- V39, V47 and V50: bytes remain, with RIE, without it, and without it after a master reset. -/
theorem test_aciaRdData_remain :
    [⟨0x96#8, 0x83#8, 0x00#8, [0x41#8, 0x42#8], true⟩, ⟨0x16#8, 0x83#8, 0x00#8, [0x41#8, 0x42#8], true⟩,
     ⟨0x03#8, 0x00#8, 0x00#8, [0x41#8, 0x42#8], true⟩].map
      (fun a => seen State.acias (exec (.aciaRdData 0) (withAcia boardT a))) =
      [some [⟨0x96#8, 0x83#8, 0x41#8, [0x42#8], true⟩], some [⟨0x16#8, 0x83#8, 0x41#8, [0x42#8], true⟩],
       some [⟨0x03#8, 0x01#8, 0x41#8, [0x42#8], true⟩]] := by decide
/-- V40 and V41: the last byte, and the stale read after it. -/
theorem test_aciaRdData_last :
    seen (fun t => (t.result, t.acias)) (exec (.aciaRdData 0)
      (withAcia boardT ⟨0x96#8, 0x83#8, 0x41#8, [0x42#8], true⟩)) =
      some (.opinion (some 0x42#8), [⟨0x96#8, 0x02#8, 0x42#8, [], false⟩]) ∧
    seen (fun t => (t.result, t.acias)) (exec (.aciaRdData 0)
      (withAcia boardT ⟨0x96#8, 0x02#8, 0x42#8, [], false⟩)) =
      some (.opinion (some 0x42#8), [⟨0x96#8, 0x02#8, 0x42#8, [], false⟩]) := by decide
/-- V36, V43 and V52: with RIE, without it, and with RIE taken from a master-reset value. -/
theorem test_rxData :
    [⟨0x96#8, 0x02#8, 0x00#8, [], false⟩, ⟨0x16#8, 0x02#8, 0x00#8, [], false⟩,
     ⟨0x83#8, 0x00#8, 0x00#8, [], false⟩].map
      (fun a => seen State.acias (exec (.rxData 0 0x41#8) (withAcia boardT a))) =
      [some [⟨0x96#8, 0x83#8, 0x00#8, [0x41#8], true⟩], some [⟨0x16#8, 0x03#8, 0x00#8, [0x41#8], false⟩],
       some [⟨0x83#8, 0x81#8, 0x00#8, [0x41#8], true⟩]] := by decide
/-- V37: the query does not clear the line. -/
theorem test_irqQuery :
    seen (fun t => (t.result, t.acias.map Acia.irqLine)) (execAll [.irqQuery 0, .irqQuery 0]
      (withAcia boardT ⟨0x96#8, 0x83#8, 0x00#8, [0x41#8], true⟩)) = some (.flag true, [true]) := by
  decide
/-- R165 on a port two ACIAs share: after rd.b of the first, and after a read of its empty queue,
comes a place for the producer, and then rd.a of the second. -/
theorem test_split_sharedPort :
    let s : State := { State.powerOn boardA with
      acias := [⟨0x96#8, 0x83#8, 0x41#8, [], true⟩, ⟨0x96#8, 0x83#8, 0x00#8, [0x43#8], true⟩] }
    seen (fun t => (t.result, t.acias.map Acia.status, t.emuRest)) (step ({ s with
        emuRest := some (.settle ⟨0, true, 0x41#8⟩ (some ⟨0x81#16, [⟨0x80#16, .acia 1⟩], 0xFF#8⟩)) }.present
          (.resume .emulation))) =
      some (.inFlight, [0x02#8, 0x83#8], some (.port ⟨0x81#16, [⟨0x80#16, .acia 1⟩], 0x41#8⟩)) ∧
    seen (fun t => (t.acias.map Acia.hold, t.emuRest)) (step ({ s with
        emuRest := some (.port ⟨0x81#16, [⟨0x80#16, .acia 1⟩], 0x41#8⟩) }.present
          (.resume .emulation))) =
      some ([0x41#8, 0x43#8], some (.settle ⟨1, true, 0x43#8⟩ (some ⟨0x81#16, [], 0x41#8⟩))) ∧
    seen (fun t => (t.result, t.emuRest)) (exec (.busRead 0x81#16) (State.powerOn boardA)) =
      some (.inFlight, some (.port ⟨0x81#16, [⟨0x80#16, .acia 1⟩], 0x00#8⟩)) := by
  decide
/-- V54: the interleaving rd.a, rx.a, rx.b, rd.b through the port bus. -/
theorem test_split_strandsByte :
    seen (fun t => (t.result, t.acias)) (Host.Core.run Sys2Proof.core 4
      { withAcia boardR ⟨0x96#8, 0x83#8, 0x00#8, [0x41#8], true⟩ with
        pending := [.transaction ⟨0x0000#16, { port := 0x81#16 }⟩, .transaction ⟨0xE042#16, {}⟩,
          .resume .producer, .resume .emulation] }) =
      some (.byte 0x41#8, [⟨0x96#8, 0x02#8, 0x41#8, [0x42#8], false⟩]) := by decide

/-! ### IDE -/

/-- V62: from any status. -/
theorem test_ideCmdIdentify :
    seen (fun t => t.ides.map fun d => (d.status, d.error, d.cursor))
      (exec (.ideCmdIdentify 0) (withIde { ide0 with status := 0x71#8 })) =
      some [(0x58#8, 0x00#8, 0)] := by decide
/-- The derived constants of Board B: words 1, 3, 6, 60 and 61. -/
theorem test_identifyBlock :
    [2, 3, 6, 7, 12, 13, 120, 121, 122, 123].map
      (fun i => identifyByte boardT ⟨0, 980#16, 10#16, 32#16⟩ i) =
      [0xD4#8, 0x03#8, 0x0A#8, 0x00#8, 0x20#8, 0x00#8, 0x00#8, 0xC9#8, 0x04#8, 0x00#8] := by decide
/-- The words between them are the template's, low byte first. -/
theorem test_identifyBlock_template :
    identifyByte boardT ⟨0, 980#16, 10#16, 32#16⟩ 4 = lo8 boardT.identTemplate[2] ∧
    identifyByte boardT ⟨0, 980#16, 10#16, 32#16⟩ 511 = hi8 boardT.identTemplate[255] := by
  constructor <;> simp [identifyByte, identifyWord, boardT, Config.boardB]
/-- L1.5, the last two reads: DRQ stays after read 511 and clears after read 512. -/
theorem test_ideRdData :
    seen (fun t => t.ides.map fun d => (d.cursor, d.status))
      (exec (.ideRdData 0) (withIde { ide0 with status := 0x58#8, cursor := 510 })) =
      some [(511, 0x58#8)] ∧
    seen (fun t => t.ides.map fun d => (d.cursor, d.status))
      (exec (.ideRdData 0) (withIde { ide0 with status := 0x58#8, cursor := 511 })) =
      some [(512, 0x50#8)] := by decide
/-- V59: past the end the registers stay. -/
theorem test_ideRdData_draw :
    seen (fun t => t.ides.map fun d => (d.cursor, d.status)) (exec (.ideRdData 0) base) =
      some [(512, 0x50#8)] := by decide
/-- V60 and V61: the task file read back, and offset 1 that reads the error register. -/
theorem test_ide_registers :
    [Instr.ideRdError 0, .ideRdSeccnt 0, .ideRdSecnum 0, .ideRdCyllo 0, .ideRdCylhi 0, .ideRdDrvhead 0,
      .ideRdStatus 0].map
      (fun i => seen State.result (execAll [.ideWrFeatures 0 0x77#8, .ideWrSeccnt 0 0x01#8,
        .ideWrSecnum 0 0x02#8, .ideWrCyllo 0 0x03#8, .ideWrCylhi 0 0x04#8, .ideWrDrvhead 0 0xE0#8, i]
        base)) =
      [0x00#8, 0x01#8, 0x02#8, 0x03#8, 0x04#8, 0xE0#8, 0x50#8].map
        (fun v => some (.opinion (some v))) := by decide
/-- V79 and V80: an unselected controller. -/
theorem test_ide_unselected :
    [Instr.ideRdData 0, .ideRdDrvhead 0, .ideRdStatus 0].map
      (fun i => seen State.result (exec i (withIde { ide0 with drvhead := 0x10#8 }))) =
      List.replicate 3 (some (.opinion (some 0xFF#8))) ∧
    seen (fun t => t.ides.map fun d => (d.status, d.seccount, d.cursor))
      (execAll [.ideCmdIdentify 0, .ideWrData 0 0x55#8, .ideWrSeccnt 0 0x09#8]
        (withIde { ide0 with drvhead := 0x10#8 })) = some [(0x50#8, 0x00#8, 512)] := by decide
/-- V81: the drive/head register is always writable. -/
theorem test_ideWrDrvhead :
    seen State.result (execAll [.ideWrDrvhead 0 0xE0#8, .ideRdDrvhead 0]
      (withIde { ide0 with drvhead := 0x10#8 })) = some (.opinion (some 0xE0#8)) := by decide
/-- V71 and V82: an unsupported code sets ERR and leaves DRQ; an accepted one still clears DF. -/
theorem test_ideCmdSetFeatures :
    seen (fun t => t.ides.map fun d => (d.status, d.error)) (exec (.ideCmdSetFeatures 0)
      (withIde { ide0 with features := 0x02#8, status := 0x58#8, cursor := 0 })) =
      some [(0x59#8, 0x00#8)] ∧
    seen (fun t => t.ides.map fun d => (d.status, d.error)) (exec (.ideCmdSetFeatures 0)
      (withIde { ide0 with features := 0x03#8, status := 0x70#8 })) = some [(0x50#8, 0x00#8)] := by
  decide
/-- V72: an unrecognized command leaves the transfer running. -/
theorem test_ideCmdOther :
    seen (fun t => t.ides.map fun d => (d.status, d.error, d.cursor)) (exec (.ideCmdOther 0 0x00#8)
      (withIde { ide0 with status := 0x58#8, cursor := 10 })) = some [(0x59#8, 0x00#8, 10)] := by decide
/-- V75 and V76: the policy `refuse` refuses every code but 0x00. -/
theorem test_ideCmdOther_refuse :
    refusalOf (exec (.ideCmdOther 0 0x20#8)
      { base with config := { boardT with ideUnlistedCmd := .refuse } }) =
      some (.ideUnlistedCommand 0x20#8) ∧
    seen (fun t => t.ides.map Ide.status) (exec (.ideCmdOther 0 0x00#8)
      { base with config := { boardT with ideUnlistedCmd := .refuse } }) = some [0x51#8] := by decide
/-- V77. -/
theorem test_ideWrData :
    refusalOf (exec (.ideWrData 0 0x55#8) base) = some (.ideDataWriteUnmodelled 0x55#8) := by decide

/-! ### DigitalIO -/

/-- V87 and V88. -/
theorem test_dio_input :
    seen State.result (exec (.dioRd 0) base) = some (.opinion (some 0xFF#8)) ∧
    seen State.result (execAll [.dioSetInput 0 0x5A#8, .dioRd 0] base) =
      some (.opinion (some 0x5A#8)) := by decide
/-- V89: the output does not loop back. -/
theorem test_dioWr :
    seen (fun t => (t.dios, t.trace)) (exec (.dioWr 0 0x81#8) { base with dios := [⟨0x5A#8⟩] }) =
      some ([⟨0x5A#8⟩], [.dioOut 0 0x81#8]) := by decide

/-! ### The step -/

/-- A word of the opcode table, placed at reset, is the first transaction to run. -/
theorem test_step_withFetchWord :
    seen (fun t => t.bank.bank) (step (State.reset.withFetchWord 16 0x9005)) = some 0x02#8 ∧
    refusalOf (step { base with pending := [.transaction ⟨0x7000#16, {}⟩] }) =
      some (.invalidKey .reservedUnit) := by decide

/-! ### Witnesses: states and operands that meet the hypotheses of each statement

`witness_<Statement>` is about `Obligations.<Statement>`. Where a statement has clauses of its own,
each has a witness at a boundary of its range. A hypothesis that an instruction answers a next state
is met by the state it answers. -/

/-- The invariant, as something to evaluate. -/
def invCheck (s : State) : Bool :=
  decide s.config.Admitted && s.acias.length == s.config.aciaNumbers.length &&
  s.ides.length == s.config.ides.length && s.dios.length == s.config.dioNumbers.length &&
  decide (s.bank.bank.toNat ≤ 127) && s.bank.phys.wf && Memory.below s.config.size s.bank.phys &&
  s.acias.all (fun a => a.status &&& 0x7C#8 == 0x00#8 && (!a.status.getLsbD 7 || a.irqLine) &&
    (!s.config.aciaMrClearsIrqLine || !a.irqLine || a.status.getLsbD 7)) &&
  s.ides.all (fun d => decide (d.cursor ≤ 512) && d.status.getLsbD 3 == decide (d.cursor < 512) &&
    d.error == 0x00#8 && d.store.wf && Memory.below (512 * s.config.ideStoreSectors) d.store) &&
  (!s.config.rxAtomic || s.emuRest.isNone && s.hostRest.isNone) && decide (s.stop = .running)

theorem inv_of_check {s : State} (h : invCheck s = true) : Inv s := by
  simp only [invCheck, Bool.and_eq_true, Bool.or_eq_true, decide_eq_true_eq, beq_iff_eq,
    List.all_eq_true, Bool.not_eq_true', Option.isNone_iff_eq_none] at h
  obtain ⟨⟨⟨⟨⟨⟨⟨⟨⟨⟨h1, h2⟩, h3⟩, h4⟩, h5⟩, h6⟩, h7⟩, h8⟩, h9⟩, h10⟩, h11⟩ := h
  refine ⟨h1, h2, h3, h4, h5, h6, h7, fun a ha => ?_, fun d hd => ?_, fun hr => ?_, h11⟩
  · obtain ⟨⟨ha1, ha2⟩, ha3⟩ := h8 a ha
    exact ⟨ha1, fun h => ha2.resolve_left (by simp [h]), fun hc hl => by simp_all⟩
  · obtain ⟨⟨⟨⟨hd1, hd2⟩, hd3⟩, hd4⟩, hd5⟩ := h9 d hd
    exact ⟨hd1, hd2, hd3, hd4, hd5⟩
  · exact h10.resolve_left (by simp [hr])

/-- An ACIA with RIE and two bytes queued. -/
def aciaBusy : Acia := ⟨0x96#8, 0x83#8, 0x00#8, [0x41#8, 0x42#8], true⟩

/-- An IDE controller whose transfer has its last byte left. -/
def ideLast : Ide := { ide0 with status := 0x58#8, cursor := 511 }

/-- Board B, its ACIA with bytes queued and its IDE controller in a transfer. -/
def busy : State := { withAcia boardT aciaBusy with ides := [ideLast] }

/-- The same board with `RX_ATOMIC` false. -/
def busyR : State := { busy with config := boardR }

/-- The geometry of Board B's drive. -/
def geometry0 : IdeConfig := ⟨0, 980#16, 10#16, 32#16⟩

/-- A board of 0x14000 bytes: bank 2 fits up to address 0x3FFF. -/
def boardS : Config := { boardT with size := 0x14000 }

/-- Board B with other devices. -/
def boardWith (ds : List Installed) : Config := { boardT with devices := ds }

/-- Board B with a hook. -/
def boardH : Config := { boardT with memHook := true }

/-! #### Keys -/

theorem witness_DecodeInvertsEncode :
    (Instr.aciaWrCtrlMr 0 0x03#8).WellFormed ∧ (Instr.aciaWrCtrl 0 0x02#8).WellFormed ∧
    (Instr.ideCmdOther 0 0xED#8).WellFormed ∧ (Instr.busRead 0xFFFF#16).WellFormed := by decide
theorem witness_DecodedIsWellFormedAndKeepsKey :
    decode ⟨0xA0FF#16, {}⟩ = .ok (.aciaWrCtrlMr 0 0xFF#8) := rfl
theorem witness_HighestPriorityRowDecides :
    ∃ r ∈ rows, r.covers 0xA003#16 = true ∧
      ∀ r' ∈ rows, r'.covers 0xA003#16 = true → r'.priority ≤ r.priority := by decide
theorem witness_UnspelledKeysAreInvalid :
    keyUnit 0x7000#16 = 7#3 ∧
    (keyUnit 0x6300#16 = 6#3 ∧ 3 ≤ (keySelector 0x6300#16).toNat) ∧
    (keyUnit 0x5200#16 = 5#3 ∧ 2 ≤ (keySelector 0x5200#16).toNat) ∧
    (keyUnit 0xC100#16 = 4#3 ∧ 1 ≤ (keySelector 0xC100#16).toNat) ∧
    (keyUnit 0x3800#16 = 3#3 ∧ 8 ≤ (keySelector 0x3800#16).toNat) ∧
    (keyUnit 0xA200#16 = 2#3 ∧ 2 ≤ (keySelector 0xA200#16).toNat) ∧
    (keyUnit 0x9100#16 = 1#3 ∧ 1 ≤ (keySelector 0x9100#16).toNat) ∧
    (keyUnit 0x8100#16 = 0#3 ∧ keySelector 0x8100#16 ≠ 0#4) ∧
    (keyDirection 0x2001#16 = 0#1 ∧ keyValue 0x2001#16 ≠ 0#8) := by decide

/-! #### The step, configurations, the invariant -/

theorem witness_StepRunsDecodedTransaction :
    base.stop = .running ∧
    (base.present (.transaction ⟨0x9002#16, {}⟩)).pending = .transaction ⟨0x9002#16, {}⟩ :: [] ∧
    decode ⟨0x9002#16, {}⟩ = .ok (.bankWrSelect 0x02#8) := ⟨rfl, rfl, rfl⟩
theorem witness_StepWithoutTransaction :
    (base.present (.transaction ⟨0xF000#16, {}⟩)).stop = .running ∧
    (base.present (.transaction ⟨0xF000#16, {}⟩)).pending = .transaction ⟨0xF000#16, {}⟩ :: [] ∧
    decode ⟨0xF000#16, {}⟩ = .error .reservedUnit ∧ base.stop = .running ∧ base.pending = [] :=
  ⟨rfl, rfl, rfl, rfl, rfl⟩
theorem witness_StoppedStateHasNoStep :
    (base.raise (.bankOutOfRange 0x0000#16 0x20#8)).stop ≠ .running ∧
    (base.refuse (.ideDataWriteUnmodelled 0x55#8)).stop ≠ .running := by decide
/-- Each clause, one past the last value that is admitted. -/
theorem witness_InvalidConfigurationIsRefused :
    ((boardWith []).devices.filter fun d => d.dev == .bank).length ≠ 1 ∧
    ((boardWith (⟨0x90#16, .bank⟩ :: boardT.devices)).devices.filter
      fun d => d.dev == .bank).length ≠ 1 ∧
    { boardT with bankSize := 0x7FFF }.bankSize < 0x8000 ∧
    0x10000 < { boardT with bankSize := 0x10001 }.bankSize ∧
    { boardT with size := 0xFFFF }.size < 2 * boardT.bankSize ∧
    (∃ d ∈ (boardWith [⟨0xFFF9#16, .ide 0⟩]).devices,
      0x10000 < d.base.toNat + portCount (kindOf d.dev)) ∧
    (∃ g ∈ (Config.ides { boardT with ides := [⟨2, 980#16, 10#16, 32#16⟩] }), 1 < g.driveIndex) ∧
    (∃ g ∈ (Config.ides { boardT with ides := [⟨0, 0x8000#16, 0x8000#16, 4#16⟩] }),
      0xFFFFFFFF < g.cylinders.toNat * g.heads.toNat * g.sectorsPerTrack.toNat) ∧
    { boardT with ideStatusReset := 0x08#8 }.ideStatusReset.getLsbD 3 = true ∧
    254 < { boardT with identLbaWord := 255 }.identLbaWord ∧
    { boardT with identLbaWord := 0 }.identLbaWord ∈ [0, 1, 2, 3, 5, 6] ∧
    { boardT with identLbaWord := 6 }.identLbaWord ∈ [0, 1, 2, 3, 5, 6] := by decide
theorem witness_PowerOnValues : boardT.Admitted ∧ boardP.Admitted ∧ boardS.Admitted := by decide
theorem witness_PowerOnMeetsInv :
    { boardT with bankSize := 0x10000 }.Admitted ∧ { boardT with size := 0x10000 }.Admitted ∧
    { boardT with identLbaWord := 4 }.Admitted ∧ { boardT with identLbaWord := 254 }.Admitted := by
  decide
theorem witness_StepKeepsInv :
    Inv (busy.present (.transaction ⟨0x2100#16, {}⟩)) ∧
    (∃ t, step (busy.present (.transaction ⟨0x2100#16, {}⟩)) = .next t) ∧
    Inv (busyR.present (.resume .emulation)) ∧
    (∃ t, step (busyR.present (.resume .emulation)) = .next t) :=
  ⟨inv_of_check (by decide), ⟨_, rfl⟩, inv_of_check (by decide), ⟨_, rfl⟩⟩
theorem witness_StepKeepsConfiguration :
    ∃ t, step (base.present (.transaction ⟨0xE041#16, {}⟩)) = .next t := ⟨_, rfl⟩
theorem witness_MissingInstanceIsRefused :
    base.Ready ∧ base.hostRest = none ∧ base.acias[1]? = none ∧ base.ides[1]? = none ∧
    base.dios[1]? = none := by decide

/-! #### The port bus -/

/-- One below the IDE controller's range, one above it, one above the ACIA's; and of the decoder the
last port of a range, the next one, one below the base, and a masked port. -/
theorem witness_UnmatchedPortFloats :
    matchPort boardT ⟨0x10#16, .ide 0⟩ 0x17#16 = some 7 ∧
    matchPort boardT ⟨0x10#16, .ide 0⟩ 0x18#16 = none ∧
    matchPort boardT ⟨0x10#16, .ide 0⟩ 0x0F#16 = none ∧
    matchPort { boardT with portMask := 0x00FF#16 } ⟨0x2280#16, .acia 0⟩ 0x1281#16 = some 1 ∧
    base.Ready ∧ (∀ d ∈ base.config.devices, matchPort base.config d 0x0F#16 = none) ∧
    (∀ d ∈ base.config.devices, matchPort base.config d 0x18#16 = none) ∧
    (∀ d ∈ base.config.devices, matchPort base.config d 0x82#16 = none) := by decide
/-- A matched data register with bytes left, with its last byte, and with none; a transfer with its
last byte left, and one past its end. -/
theorem witness_BusReadIsWiredAnd :
    Inv base ∧ base.config.rxAtomic = true ∧ base.acias[0]? = some aciaPowerOn ∧
    aciaPowerOn.rxq = [] ∧ base.ide? 0 = some (geometry0, ide0) ∧ 512 ≤ ide0.cursor ∧
    Inv (withAcia boardT { aciaBusy with rxq := [0x42#8] }) ∧
    Inv busy ∧ busy.config.rxAtomic = true ∧
    (∀ d ∈ busy.config.devices, d.dev = .acia 0 → matchPort busy.config d 0x80#16 ≠ some 1) ∧
    (∀ d ∈ busy.config.devices, d.dev = .ide 0 → matchPort busy.config d 0x11#16 ≠ some 0) ∧
    busy.acias[0]? = some aciaBusy ∧ aciaBusy.rxq = 0x41#8 :: [0x42#8] ∧
    (∃ d ∈ busy.config.devices, d.dev = .acia 0 ∧ matchPort busy.config d 0x81#16 = some 1) ∧
    busy.ide? 0 = some (geometry0, ideLast) ∧
    (ideLast.drvhead.getLsbD 4).toNat = geometry0.driveIndex ∧ ideLast.cursor < 512 ∧
    (∃ e ∈ busy.config.devices, e.dev = .ide 0 ∧ matchPort busy.config e 0x10#16 = some 0) :=
  ⟨inv_of_check (by decide), rfl, rfl, rfl, rfl, by decide, inv_of_check (by decide),
    inv_of_check (by decide), rfl, by decide, by decide, rfl, rfl, by decide, rfl, by decide,
    by decide, by decide⟩
theorem witness_BusReadNeverStops : busy.Ready ∧ busyR.Ready ∧ busyR.config.rxAtomic = false := by
  decide
theorem witness_BusReadActsAsItsOnlyDevice :
    ∃ t o, busy.Ready ∧ busy.config.rxAtomic = true ∧
      busy.config.devices = [⟨0x78#16, .bank⟩] ++ ⟨0x80#16, .acia 0⟩ ::
        [⟨0x10#16, .ide 0⟩, ⟨0x00#16, .dio 0⟩] ∧
      (∀ e ∈ [(⟨0x78#16, .bank⟩ : Installed)] ++ [⟨0x10#16, .ide 0⟩, ⟨0x00#16, .dio 0⟩],
        matchPort busy.config e 0x81#16 = none) ∧
      matchPort busy.config ⟨0x80#16, .acia 0⟩ 0x81#16 = some 1 ∧
      decode (deviceKey 0#1 (.acia 0) 1 0x00#8) = .ok (.aciaRdData 0) ∧
      exec (.aciaRdData 0) busy = .next t ∧ t.result = .opinion o :=
  ⟨_, _, ⟨rfl, rfl⟩, rfl, rfl, by decide, by decide, rfl, rfl, rfl⟩
theorem witness_BusWriteActsAsItsOnlyDevice :
    busy.Ready ∧
    busy.config.devices = [⟨0x78#16, .bank⟩, ⟨0x80#16, .acia 0⟩] ++ ⟨0x10#16, .ide 0⟩ ::
      [⟨0x00#16, .dio 0⟩] ∧
    (∀ e ∈ [(⟨0x78#16, .bank⟩ : Installed), ⟨0x80#16, .acia 0⟩] ++ [⟨0x00#16, .dio 0⟩],
      matchPort busy.config e 0x17#16 = none) ∧
    matchPort busy.config ⟨0x10#16, .ide 0⟩ 0x17#16 = some 7 ∧
    decode (deviceKey 1#1 (.ide 0) 7 0xEC#8) = .ok (.ideCmdIdentify 0) :=
  ⟨⟨rfl, rfl⟩, rfl, by decide, by decide, rfl⟩
theorem witness_BusWriteReachesBothInInstalledOrder :
    ∃ t, (State.powerOn boardO).Ready ∧
      boardO.devices = [⟨0x78#16, .bank⟩, ⟨0x10#16, .ide 0⟩] ++ ⟨0x80#16, .acia 0⟩ ::
        ([] ++ ⟨0x80#16, .dio 0⟩ :: []) ∧
      (∀ e ∈ [(⟨0x78#16, .bank⟩ : Installed), ⟨0x10#16, .ide 0⟩] ++ [] ++ [],
        matchPort boardO e 0x80#16 = none) ∧
      matchPort boardO ⟨0x80#16, .acia 0⟩ 0x80#16 = some 0 ∧
      matchPort boardO ⟨0x80#16, .dio 0⟩ 0x80#16 = some 0 ∧
      decode (deviceKey 1#1 (.acia 0) 0 0x96#8) = .ok (.aciaWrCtrl 0 0x96#8) ∧
      decode (deviceKey 1#1 (.dio 0) 0 0x96#8) = .ok (.dioWr 0 0x96#8) ∧
      exec (.aciaWrCtrl 0 0x96#8) (State.powerOn boardO) = .next t :=
  ⟨_, ⟨rfl, rfl⟩, rfl, by decide, by decide, by decide, rfl, rfl, rfl⟩
/-- A port whose IDE offset, if it has one, is a register other than data. -/
theorem fansOut_of {s : State} {p : U16}
    (h : ∀ d ∈ s.config.devices, d.dev.ideNumber.isSome = true → matchPort s.config d p ≠ some 0)
    (ha : s.config.ideUnlistedCmd = .abort) :
    ∀ d ∈ s.config.devices, ∀ n, d.dev = .ide n → matchPort s.config d p ≠ some 0 ∧
      (matchPort s.config d p = some 7 → s.config.ideUnlistedCmd = .abort) :=
  fun d hd n hn => ⟨h d hd (by rw [hn]; rfl), fun _ => ha⟩
/-- The IDE's first and last written offset, and a port of each other kind with what it asks. -/
theorem witness_BusWriteFansOut :
    Inv busy ∧ busy.Ready ∧
    (∀ d ∈ busy.config.devices, ∀ n, d.dev = .ide n → matchPort busy.config d 0x17#16 ≠ some 0 ∧
      (matchPort busy.config d 0x17#16 = some 7 → busy.config.ideUnlistedCmd = .abort)) ∧
    (∀ d ∈ busy.config.devices, ∀ n, d.dev = .ide n → matchPort busy.config d 0x11#16 ≠ some 0 ∧
      (matchPort busy.config d 0x11#16 = some 7 → busy.config.ideUnlistedCmd = .abort)) ∧
    (∃ d ∈ busy.config.devices, d.dev = .bank ∧ matchPort busy.config d 0x78#16 = some 0) ∧
    (∃ d ∈ busy.config.devices, d.dev = .acia 0 ∧ matchPort busy.config d 0x80#16 = some 0) ∧
    (∃ d ∈ busy.config.devices, d.dev = .ide 0 ∧ matchPort busy.config d 0x16#16 = some 6) :=
  ⟨inv_of_check (by decide), ⟨rfl, rfl⟩, fansOut_of (by decide) rfl, fansOut_of (by decide) rfl,
    by decide, by decide, by decide⟩
/-! #### BankedMemory -/

theorem witness_BankRegisterIsWriteOnly : base.Ready := by decide
/-- The last banked byte and the first of upper RAM, in bank 31. -/
theorem witness_MemReadReturnsMappedByte :
    (inBank 0x1F#8).Ready ∧ (inBank 0x1F#8).config.memHook = false ∧
    (0xFFFFF : Nat) = (if (0x7FFF#16).toNat < boardT.bankSize then
      (0x7FFF#16).toNat + (inBank 0x1F#8).bank.bank.toNat * boardT.bankSize
      else (boardT.size - 2 * boardT.bankSize) + (0x7FFF#16).toNat) ∧
    (0xF8000 : Nat) = (if (0x8000#16).toNat < boardT.bankSize then
      (0x8000#16).toNat + (inBank 0x1F#8).bank.bank.toNat * boardT.bankSize
      else (boardT.size - 2 * boardT.bankSize) + (0x8000#16).toNat) ∧
    0xFFFFF < boardT.size ∧ 0xF8000 < boardT.size := by decide
theorem witness_MemWriteStoresMappedByte :
    base.Ready ∧ base.config.memHook = false ∧
    (0x7FFF : Nat) = (if (0x7FFF#16).toNat < boardT.bankSize then
      (0x7FFF#16).toNat + base.bank.bank.toNat * boardT.bankSize
      else (boardT.size - 2 * boardT.bankSize) + (0x7FFF#16).toNat) ∧
    0x7FFF < base.config.size := by decide
/-- The first byte that faults on a board where a bank fits in part, and the last of bank 127. -/
theorem witness_AccessPastSizeFaults :
    { State.powerOn boardS with bank := ⟨0x02#8, []⟩ }.Ready ∧ boardS.memHook = false ∧
    (0x14000 : Nat) = (if (0x4000#16).toNat < boardS.bankSize then
      (0x4000#16).toNat + (0x02#8).toNat * boardS.bankSize
      else (boardS.size - 2 * boardS.bankSize) + (0x4000#16).toNat) ∧ boardS.size ≤ 0x14000 ∧
    (inBank 0x7F#8).Ready ∧
    (0x3FFFFF : Nat) = (if (0x7FFF#16).toNat < boardT.bankSize then
      (0x7FFF#16).toNat + (inBank 0x7F#8).bank.bank.toNat * boardT.bankSize
      else (boardT.size - 2 * boardT.bankSize) + (0x7FFF#16).toNat) ∧ boardT.size ≤ 0x3FFFFF := by
  decide
theorem witness_HookBypassesPhysicalMemory :
    { base with config := boardH }.Ready ∧ boardH.memHook = true ∧
    { base with hookReads := [some 0x77#8] }.hookReads = some 0x77#8 :: [] ∧
    { base with hookReads := [none] }.hookReads = none :: [] ∧
    physOff boardH 0x00#8 0xFFFF#16 < boardH.size ∧
    { base with hookWrites := [true] }.hookWrites = true :: [] ∧
    { base with hookWrites := [false] }.hookWrites = false :: [] ∧
    { base with config := boardH, bank := ⟨0x20#8, []⟩ }.Ready ∧
    boardH.size ≤ physOff boardH 0x20#8 0x0000#16 :=
  ⟨⟨rfl, rfl⟩, rfl, rfl, rfl, by decide, rfl, rfl, ⟨rfl, rfl⟩, by decide⟩
theorem witness_UpperRamIgnoresBank :
    Inv (inBank 0x7F#8) ∧ (inBank 0x7F#8).Ready ∧ (inBank 0x7F#8).config.memHook = false ∧
    boardT.bankSize ≤ (0x8000#16).toNat ∧ boardT.bankSize ≤ (0xFFFF#16).toNat :=
  ⟨inv_of_check (by decide), ⟨rfl, rfl⟩, rfl, by decide, by decide⟩
/-- Bank 31, the last that fits, by its odd select value, and bank 30; and, of the written bank, one
that fits in part. -/
theorem witness_BanksAreIsolated :
    Inv base ∧ base.Ready ∧ base.config.memHook = false ∧
    (0x7FFF#16).toNat < base.config.bankSize ∧ 30 = (0x3C#8).toNat / 2 ∧ 31 = (0x3F#8).toNat / 2 ∧
    (30 : Nat) ≠ 31 ∧ (0x7FFF#16).toNat + 30 * base.config.bankSize < base.config.size ∧
    (31 + 1) * base.config.bankSize ≤ base.config.size ∧
    (0x3FFF#16).toNat + 2 * boardS.bankSize < boardS.size ∧ (1 + 1) * boardS.bankSize ≤ boardS.size :=
  ⟨inv_of_check (by decide), ⟨rfl, rfl⟩, rfl, by decide, by decide, by decide, by decide, by decide,
    by decide, by decide, by decide⟩
theorem witness_BankAliasesUpperRamIff :
    boardT.Admitted ∧ boardT.bankSize < 0x10000 ∧
    { boardT with bankSize := 0xFFFF }.Admitted := by decide
/-- Each clause, one past the last value that passes. -/
theorem witness_BulkArgumentsAreChecked :
    base.Ready ∧ 0x10000 < (0xFFFF : Int) + 2 ∧ (-1 : Int) < 0 ∧
    (([0x01#8, 0x02#8, 0x03#8] : List Byte).length : Int) < 2 + 2 := by decide
/-- Without a hook every access is declined. -/
theorem unhooked_writeAnswers {s : State} (h : s.config.memHook = false) (n : Nat) :
    s.WriteAnswers (List.replicate n false) s.hookWrites := by
  rw [State.WriteAnswers, h]
  exact ⟨fun w hw => List.eq_of_mem_replicate hw, rfl⟩
theorem unhooked_readAnswers {s : State} (h : s.config.memHook = false) (n : Nat) :
    s.ReadAnswers (List.replicate n none) s.hookReads := by
  rw [State.ReadAnswers, h]
  exact ⟨fun w hw => List.eq_of_mem_replicate hw, rfl⟩

/-- Bank 2 of the board of 0x14000 bytes, where address 0x3FFF is the last inside `Size`; and the
same with a hook that takes the first access and declines the second. -/
def edge : State := { State.powerOn boardS with bank := ⟨0x02#8, []⟩ }
def edgeH : State :=
  { edge with
    config := { boardS with memHook := true }
    hookWrites := [true, false, true], hookReads := [some 0x77#8, none, none] }

/-- Up to the last address, and across the two regions, without a hook; and past `Size` where the
hook accepts. -/
theorem witness_SetContentsWritesEveryByte :
    (inBank 0x01#8).Ready ∧ (inBank 0x01#8).WriteAnswers (List.replicate 2 false) [] ∧
    (List.replicate 2 false).length = 2 ∧ 0xFFFE + 2 ≤ 0x10000 ∧
    0 + 2 ≤ ([0x01#8, 0x02#8] : List Byte).length ∧
    (∀ i < 2, physOff boardT 0x01#8 (BitVec.ofNat 16 (0xFFFE + i)) < boardT.size) ∧
    (∀ i < 2, physOff boardT 0x01#8 (BitVec.ofNat 16 (0x7FFF + i)) < boardT.size) ∧
    (∀ i < 2, ∀ j < 2, i < j → physOff boardT 0x01#8 (BitVec.ofNat 16 (0x7FFF + j)) ≠
      physOff boardT 0x01#8 (BitVec.ofNat 16 (0x7FFF + i))) ∧
    edgeH.Ready ∧ edgeH.WriteAnswers [true] [false, true] ∧
    (∀ i < 1, [true][i]? = some false →
      physOff boardS 0x02#8 (BitVec.ofNat 16 (0x4000 + i)) < boardS.size) ∧
    boardS.size ≤ physOff boardS 0x02#8 0x4000#16 :=
  ⟨⟨rfl, rfl⟩, unhooked_writeAnswers rfl 2, by decide, by decide, by decide, by decide, by decide,
    by decide, ⟨rfl, rfl⟩, rfl, by decide, by decide⟩
/-- Without a hook, and with one that declines the second byte. -/
theorem witness_SetContentsStopsAtFirstBadByte :
    edge.Ready ∧ edge.WriteAnswers (List.replicate 2 false) [] ∧
    edgeH.Ready ∧ edgeH.WriteAnswers [true, false] [true] ∧ [true, false].length = 1 + 1 ∧
    [true, false][1]? = some false ∧
    0x3FFF + 2 ≤ 0x10000 ∧ 0 + 2 ≤ ([0x01#8, 0x02#8] : List Byte).length ∧ 1 < 2 ∧
    (∀ i < 1, physOff boardS 0x02#8 (BitVec.ofNat 16 (0x3FFF + i)) < boardS.size) ∧
    boardS.size ≤ physOff boardS 0x02#8 (BitVec.ofNat 16 (0x3FFF + 1)) :=
  ⟨⟨rfl, rfl⟩, unhooked_writeAnswers rfl 2, ⟨rfl, rfl⟩, rfl, rfl, rfl, by decide, by decide,
    by decide, by decide, by decide⟩
/-- Across the two regions; and the last byte inside `Size` and the first past it. -/
theorem witness_GetContentsReadsEveryByte :
    base.Ready ∧ base.ReadAnswers (List.replicate 2 none) [] ∧ 0x7FFF + 2 ≤ 0x10000 ∧
    1 + 2 ≤ ([0x01#8, 0x02#8, 0x03#8] : List Byte).length ∧
    (∀ i < 2, physOff boardT base.bank.bank (BitVec.ofNat 16 (0x7FFF + i)) < boardT.size) ∧
    edgeH.Ready ∧ edgeH.ReadAnswers [some 0x77#8, none] [none] ∧
    [some 0x77#8, none].length = 1 + 1 ∧ [some 0x77#8, none][1]? = some none ∧
    0x3FFF + 2 ≤ 0x10000 ∧ 1 < 2 ∧
    (∀ i < 1, physOff boardS 0x02#8 (BitVec.ofNat 16 (0x3FFF + i)) < boardS.size) ∧
    boardS.size ≤ physOff boardS 0x02#8 (BitVec.ofNat 16 (0x3FFF + 1)) :=
  ⟨⟨rfl, rfl⟩, unhooked_readAnswers rfl 2, by decide, by decide, by decide, ⟨rfl, rfl⟩, rfl, rfl,
    rfl, by decide, by decide, by decide, by decide⟩

/-! #### ACIA -/

theorem witness_ControlWriteSetsTransmitEmpty :
    busy.Ready ∧ busy.acias[0]? = some aciaBusy ∧ (0xFE#8).extractLsb' 0 2 ≠ 3#2 := by decide
theorem witness_MasterResetClearsStatus :
    busy.Ready ∧ busy.acias[0]? = some aciaBusy ∧ aciaBusy.irqLine = true ∧
    busy.config.aciaMrClearsIrqLine = false := by decide
theorem witness_DataWriteEmitsByte : base.Ready ∧ base.acias[0]? = some aciaPowerOn := by decide
theorem witness_StatusReadChangesNothing :
    busy.Ready ∧ busy.acias[0]? = some aciaBusy ∧ Inv busy :=
  ⟨⟨rfl, rfl⟩, rfl, inv_of_check (by decide)⟩
/-- The three rows of rule R159. -/
theorem witness_DataReadTakesHead :
    busy.Ready ∧ busy.config.rxAtomic = true ∧ busy.acias[0]? = some aciaBusy ∧
    aciaBusy.rxq = 0x41#8 :: [0x42#8] ∧ aciaBusy.control.getLsbD 7 = true ∧
    { aciaBusy with rxq := [0x42#8] }.rxq = 0x42#8 :: [] ∧
    { aciaBusy with control := 0x16#8 }.control.getLsbD 7 = false := by decide
theorem witness_EmptyDataReadIsStale :
    base.Ready ∧ base.acias[0]? = some aciaPowerOn ∧ aciaPowerOn.rxq = [] := by decide
theorem witness_ReceivedByteIsQueued :
    base.stop = .running ∧ base.hostRest = none ∧ base.config.rxAtomic = true ∧
    base.acias[0]? = some aciaPowerOn ∧ aciaPowerOn.control.getLsbD 7 = false ∧
    busy.acias[0]? = some aciaBusy ∧ aciaBusy.control.getLsbD 7 = true := by decide
theorem witness_InterruptLineFollowsStatus :
    (∀ a ∈ busy.acias, a.irqLine = a.status.getLsbD 7) ∧
    (∃ t, exec (.aciaRdData 0) busy = .next t) ∧
    (∀ n v, Instr.aciaRdData 0 ≠ .aciaWrCtrlMr n v) ∧ (∀ p v, Instr.aciaRdData 0 ≠ .busWrite p v) ∧
    (∃ t, exec (.busWrite 0x00#16 0x03#8) busy = .next t) ∧
    (∀ d ∈ busy.config.devices, ∀ n ∈ [0, 1], d.dev = .acia n →
      matchPort busy.config d 0x00#16 ≠ some 0) ∧
    { boardT with aciaMrClearsIrqLine := true }.aciaMrClearsIrqLine = true :=
  ⟨by decide, ⟨_, rfl⟩, by simp, by simp, ⟨_, rfl⟩, by decide, rfl⟩
theorem witness_ReceiveQueueIsFifo :
    base.Ready ∧ base.hostRest = none ∧ base.config.rxAtomic = true ∧
    base.acias[0]? = some aciaPowerOn ∧ aciaPowerOn.rxq = [] ∧
    [0x31#8, 0x32#8, 0x33#8][0]? = some 0x31#8 ∧ [0x31#8, 0x32#8, 0x33#8][2]? = some 0x33#8 := by
  decide
theorem witness_SplitTransactionsRunInTwoSteps :
    busyR.Ready ∧ busyR.hostRest = none ∧ busyR.config.rxAtomic = false ∧
    busyR.acias[0]? = some aciaBusy ∧ aciaBusy.rxq = 0x41#8 :: [0x42#8] ∧
    (busyR.present (.resume .producer)).pending = .resume .producer :: [] ∧
    (busyR.present (.resume .emulation)).pending = .resume .emulation :: [] ∧
    boardR.devices = [⟨0x78#16, .bank⟩] ++ ⟨0x80#16, .acia 0⟩ ::
      [⟨0x10#16, .ide 0⟩, ⟨0x00#16, .dio 0⟩] ∧
    (∀ e ∈ [(⟨0x78#16, .bank⟩ : Installed)] ++ [⟨0x10#16, .ide 0⟩, ⟨0x00#16, .dio 0⟩],
      matchPort boardR e 0x81#16 = none) ∧
    matchPort boardR ⟨0x80#16, .acia 0⟩ 0x81#16 = some 1 := by decide
/-- The read at the device, and at port 0x81. -/
theorem witness_InterleavingStrandsByte :
    { busyR with acias := [{ aciaBusy with rxq := [0x41#8] }] }.Ready ∧ busyR.hostRest = none ∧
    busyR.config.rxAtomic = false ∧ { aciaBusy with rxq := [0x41#8] }.rxq = [0x41#8] ∧
    decode ⟨0x2100#16, {}⟩ = .ok (.aciaRdData 0) ∧
    decode ⟨0x0000#16, { port := 0x81#16 }⟩ = .ok (.busRead 0x81#16) ∧
    decode ⟨0xE042#16, {}⟩ = .ok (.rxData 0 0x42#8) := ⟨⟨rfl, rfl⟩, rfl, rfl, rfl, rfl, rfl, rfl⟩
theorem witness_OwnSubStepComesFirst :
    (∀ n v, Instr.aciaRdData 0 ≠ .rxData n v) ∧
    { busyR with emuRest := some (.settle ⟨0, true, 0x41#8⟩ none) }.emuRest.isSome ∧
    { busyR with hostRest := some 0 }.hostRest.isSome ∧ busyR.acias[0]? = some aciaBusy ∧
    (∀ e ∈ [(⟨0x00#16, .dio 0⟩ : Installed)], matchPort boardR e 0x81#16 = none) :=
  ⟨by simp, rfl, rfl, rfl, by decide⟩

/-! #### IDE and DigitalIO -/

theorem witness_UnselectedReadsFloat :
    (withIde { ide0 with drvhead := 0x10#8 }).Ready ∧
    (withIde { ide0 with drvhead := 0x10#8 }).ide? 0 =
      some (geometry0, { ide0 with drvhead := 0x10#8 }) ∧
    ((0x10#8 : Byte).getLsbD 4).toNat ≠ geometry0.driveIndex := ⟨⟨rfl, rfl⟩, rfl, by decide⟩
theorem witness_UnselectedWritesAreDropped :
    (State.powerOn boardP).Ready ∧
    (State.powerOn boardP).ide? 1 = some (⟨1, 100#16, 4#16, 16#16⟩, idePowerOn boardP) ∧
    ((idePowerOn boardP).drvhead.getLsbD 4).toNat ≠ 1 := ⟨⟨rfl, rfl⟩, rfl, by decide⟩
theorem witness_SelectedRegistersRead :
    base.Ready ∧ base.ide? 0 = some (geometry0, ide0) ∧
    (ide0.drvhead.getLsbD 4).toNat = geometry0.driveIndex := ⟨⟨rfl, rfl⟩, rfl, by decide⟩
/-- A drive whose index is 1, selected. -/
theorem witness_SelectedRegistersWrite :
    { State.powerOn boardP with ides := [ide0, { ide0 with drvhead := 0xB0#8 }] }.Ready ∧
    { State.powerOn boardP with ides := [ide0, { ide0 with drvhead := 0xB0#8 }] }.ide? 1 =
      some (⟨1, 100#16, 4#16, 16#16⟩, { ide0 with drvhead := 0xB0#8 }) ∧
    ((0xB0#8 : Byte).getLsbD 4).toNat = 1 := ⟨⟨rfl, rfl⟩, rfl, by decide⟩
theorem witness_DriveHeadIsAlwaysWritable : base.Ready ∧ base.ide? 0 = some (geometry0, ide0) :=
  ⟨⟨rfl, rfl⟩, rfl⟩
theorem witness_DataPortReadsBuffer :
    busy.Ready ∧ busy.ide? 0 = some (geometry0, ideLast) ∧
    (ideLast.drvhead.getLsbD 4).toNat = geometry0.driveIndex ∧ ideLast.cursor < 512 ∧
    base.ide? 0 = some (geometry0, ide0) ∧ 512 ≤ ide0.cursor :=
  ⟨⟨rfl, rfl⟩, rfl, by decide, by decide, rfl, by decide⟩
theorem witness_SelectedDataWriteIsRefused :
    busy.Ready ∧ busy.ide? 0 = some (geometry0, ideLast) ∧
    (ideLast.drvhead.getLsbD 4).toNat = geometry0.driveIndex := ⟨⟨rfl, rfl⟩, rfl, by decide⟩
theorem witness_IdentifyLoadsBuffer :
    busy.Ready ∧ busy.ide? 0 = some (geometry0, ideLast) ∧
    (ideLast.drvhead.getLsbD 4).toNat = geometry0.driveIndex := ⟨⟨rfl, rfl⟩, rfl, by decide⟩
/-- Each word the rule names, and the first and last of the template. -/
theorem witness_IdentifyBlockContents :
    boardT.Admitted ∧ geometry0 ∈ boardT.ides ∧ 255 < 256 ∧
    [0, 1, 3, 6, 60, 61, 255].map (fun k =>
      if k = 1 then geometry0.cylinders.toNat
      else if k = 3 then geometry0.heads.toNat
      else if k = 6 then geometry0.sectorsPerTrack.toNat
      else if k = boardT.identLbaWord then
        (geometry0.cylinders.toNat * geometry0.heads.toNat * geometry0.sectorsPerTrack.toNat) %
          0x10000
      else if k = boardT.identLbaWord + 1 then
        (geometry0.cylinders.toNat * geometry0.heads.toNat * geometry0.sectorsPerTrack.toNat) /
          0x10000
      else 0x5A00 + k) = [0x5A00, 980, 10, 32, 0xC900, 4, 0x5AFF] := by decide
theorem witness_SetFeaturesOutcome :
    busy.Ready ∧ busy.ide? 0 = some (geometry0, ideLast) ∧
    (ideLast.drvhead.getLsbD 4).toNat = geometry0.driveIndex ∧
    ¬ (ideLast.features = 0x01#8 ∨ ideLast.features = 0x03#8) ∧
    (withIde { ideLast with features := 0x03#8 }).ide? 0 =
      some (geometry0, { ideLast with features := 0x03#8 }) :=
  ⟨⟨rfl, rfl⟩, rfl, by decide, by decide, rfl⟩
theorem witness_UnrecognizedCommandOutcome :
    busy.Ready ∧ busy.ide? 0 = some (geometry0, ideLast) ∧
    (ideLast.drvhead.getLsbD 4).toNat = geometry0.driveIndex ∧
    busy.config.ideUnlistedCmd = .abort ∧
    { boardT with ideUnlistedCmd := .refuse }.ideUnlistedCmd = .refuse ∧ (0x20#8 : Byte) ≠ 0x00#8 :=
  ⟨⟨rfl, rfl⟩, rfl, by decide, rfl, rfl, by decide⟩
theorem witness_IdentifyThenReadsDeliverBlock :
    busy.Ready ∧ busy.ide? 0 = some (geometry0, ideLast) ∧
    (ideLast.drvhead.getLsbD 4).toNat = geometry0.driveIndex ∧ 0 < 512 ∧ 511 < 512 :=
  ⟨⟨rfl, rfl⟩, rfl, by decide, by decide, by decide⟩
theorem witness_DioReadsLatchAndWritesEvent : base.Ready ∧ base.dios[0]? = some ⟨0xFF#8⟩ := by decide
theorem witness_HostSetsDioLatch :
    { busyR with emuRest := some (.settle ⟨0, true, 0x41#8⟩ none) }.stop = .running ∧
    { busyR with emuRest := some (.settle ⟨0, true, 0x41#8⟩ none) }.dios[0]? = some ⟨0xFF#8⟩ ∧
    base.emuRest = none := by decide

end Sys2Proof.Tests
end

