-- ==== Sys2Proof/Proofs/Configuration.lean ====
section
/-! The conditions of decision D31 as propositions, what admission says of them, and when
construction refuses. -/

namespace Sys2Proof

/-- No condition is left out of the list that construction checks. -/
@[simp] theorem ConfigCondition.mem_all (k : ConfigCondition) : k ∈ ConfigCondition.all := by
  cases k <;> decide

/-- Rule R9: admitted means that every condition is met. -/
theorem Config.admitted_iff_meets (c : Config) : c.Admitted ↔ ∀ k, c.meets k = true := by
  simp [Config.Admitted, Config.failed, List.find?_eq_none]

/-! ### Each condition of decision D31, as the arithmetic it states -/

section Conditions

variable (c : Config)

theorem Config.meets_oneBankedMemory :
    c.meets .oneBankedMemory = true ↔ (c.devices.filter fun d => d.dev == .bank).length = 1 :=
  beq_iff_eq

theorem Config.meets_bankSizes :
    c.meets .bankSizes = true ↔
      0x8000 ≤ c.bankSize ∧ c.bankSize ≤ 0x10000 ∧ 2 * c.bankSize ≤ c.size :=
  decide_eq_true_iff

/-- The last port of a range is at most 0xFFFF: the model's truncated subtraction is exact, because
every kind owns a port (rule R112). -/
theorem Config.meets_portRange :
    c.meets .portRange = true ↔
      ∀ d ∈ c.devices, d.base.toNat + Machine.portCount (Machine.kindOf d.dev) ≤ 0x10000 := by
  have portCount_pos (k : DeviceKind) : 0 < Machine.portCount k := by cases k <;> decide
  simp only [Config.meets, List.all_eq_true, decide_eq_true_iff]
  refine forall₂_congr fun d _ => ?_
  have := portCount_pos (Machine.kindOf d.dev)
  omega

theorem Config.meets_driveIndex :
    c.meets .driveIndex = true ↔ ∀ g ∈ c.ides, g.driveIndex ≤ 1 := by
  simp only [Config.meets, List.all_eq_true, decide_eq_true_iff]

theorem Config.meets_geometryProduct :
    c.meets .geometryProduct = true ↔
      ∀ g ∈ c.ides,
        g.cylinders.toNat * g.heads.toNat * g.sectorsPerTrack.toNat ≤ 0xFFFFFFFF := by
  simp only [Config.meets, List.all_eq_true, decide_eq_true_iff]
  exact Iff.rfl

theorem Config.meets_statusResetDrq :
    c.meets .statusResetDrq = true ↔ c.ideStatusReset.getLsbD 3 = false := by
  rw [Config.meets, Bool.not_eq_true']

theorem Config.meets_lbaWord :
    c.meets .lbaWord = true ↔ c.identLbaWord ≤ 254 ∧ c.identLbaWord ∉ [0, 1, 2, 3, 5, 6] := by
  simp [Config.meets]

end Conditions

namespace Machine

/-- Rules R9 and R238: construction refuses exactly the configurations that are not admitted. -/
theorem State.construct_refused_iff (c : Config) :
    (∃ k, State.construct c = .refused (.configInvalid k)) ↔ ¬ c.Admitted := by
  cases h : c.failed <;> simp [State.construct, h]

/-- Settles O9: an admitted configuration meets every condition of decision D31, and each disjunct
denies one of them. -/
theorem invalidConfigurationIsRefused : Obligations.InvalidConfigurationIsRefused := by
  intro c hfails
  refine (State.construct_refused_iff c).2 fun hadmitted => ?_
  have hmeets := c.admitted_iff_meets.1 hadmitted
  obtain ⟨hbankMin, hbankMax, hsize⟩ := c.meets_bankSizes.1 (hmeets .bankSizes)
  obtain ⟨hwordMax, hwordFree⟩ := c.meets_lbaWord.1 (hmeets .lbaWord)
  rcases hfails with hbanks | hsmall | hlarge | hsizeLow | ⟨d, hd, hrange⟩ | ⟨g, hg, hdrive⟩ |
    ⟨g, hg, hproduct⟩ | hdrq | hwordHigh | hwordTaken
  · exact hbanks (c.meets_oneBankedMemory.1 (hmeets .oneBankedMemory))
  · exact hbankMin.not_gt hsmall
  · exact hbankMax.not_gt hlarge
  · exact hsize.not_gt hsizeLow
  · exact (c.meets_portRange.1 (hmeets .portRange) d hd).not_gt hrange
  · exact (c.meets_driveIndex.1 (hmeets .driveIndex) g hg).not_gt hdrive
  · exact (c.meets_geometryProduct.1 (hmeets .geometryProduct) g hg).not_gt hproduct
  · exact Bool.false_ne_true ((c.meets_statusResetDrq.1 (hmeets .statusResetDrq)).symm.trans hdrq)
  · exact hwordMax.not_gt hwordHigh
  · exact hwordFree hwordTaken

end Machine

end Sys2Proof
end

section
/-! What power-on gives, and what a step keeps: the configuration, the number of instances and the
invariant (spec/10_state.md). Every operation of the model is shown to keep them once, as `Keeps`;
the statements on `step` read off its parts. -/

namespace Sys2Proof

theorem Config.meets_memInit (c : Config) :
    c.meets .memInit = true ↔ c.memInit.wf = true ∧ Memory.below c.size c.memInit = true := by
  rw [Config.meets, Bool.and_eq_true]

namespace Machine

/-! ### The registers of one device -/

section Acia

variable {c : Config} {a : Acia}

/-- Status bits below IRQ and outside 6:2 can be set without the line. -/
theorem AciaInv.setStatus {m : Byte} (hreserved : m &&& 0x7C#8 = 0x00#8)
    (hirq : m.getLsbD 7 = false) (h : AciaInv c a) :
    AciaInv c { a with status := a.status ||| m } where
  reservedZero := by rw [BitVec.and_or_distrib_right, h.reservedZero, hreserved]; rfl
  irqRaisesLine := by
    rw [BitVec.getLsbD_or, hirq, Bool.or_false]
    exact h.irqRaisesLine
  lineHasIrq := by
    rw [BitVec.getLsbD_or, hirq, Bool.or_false]
    exact h.lineHasIrq

/-- RDRF and IRQ are set together with the line (rules R159 and R161). -/
theorem AciaInv.raiseLine (h : AciaInv c a) :
    AciaInv c { a with status := a.status ||| 0x81#8, irqLine := true } where
  reservedZero := by rw [BitVec.and_or_distrib_right, h.reservedZero]; rfl
  irqRaisesLine _ := rfl
  lineHasIrq _ _ := by rw [BitVec.getLsbD_or]; exact Bool.or_true _

/-- RDRF and IRQ are cleared together with the line (rule R159). -/
theorem AciaInv.lowerLine (h : AciaInv c a) :
    AciaInv c { a with status := a.status &&& 0x7E#8, irqLine := false } where
  reservedZero := by
    rw [BitVec.and_assoc, BitVec.and_comm 0x7E#8, ← BitVec.and_assoc, h.reservedZero]
    rfl
  irqRaisesLine hirq := by
    rw [BitVec.getLsbD_and, show (0x7E#8).getLsbD 7 = false from rfl, Bool.and_false] at hirq
    exact absurd hirq Bool.false_ne_true
  lineHasIrq _ hline := absurd hline Bool.false_ne_true

theorem aciaConfigure_inv (v : Byte) (h : AciaInv c a) : AciaInv c (aciaConfigure v a) :=
  { h.setStatus (m := tdre) rfl rfl with }

theorem aciaTransmit_inv (h : AciaInv c a) : AciaInv c (aciaTransmit a) :=
  h.setStatus (m := tdre) rfl rfl

/-- Rule R164: the line may stay raised only where the board's master reset leaves it. -/
theorem aciaMasterReset_inv (v : Byte) (a : Acia) :
    AciaInv c (aciaMasterReset c.aciaMrClearsIrqLine v a) where
  reservedZero := BitVec.zero_and
  irqRaisesLine hirq := absurd (BitVec.getLsbD_zero.symm.trans hirq) Bool.false_ne_true
  lineHasIrq hclears hline := by
    simp only [aciaMasterReset, hclears, if_true] at hline
    exact absurd hline Bool.false_ne_true

theorem aciaTake_inv (b : Byte) (q : List Byte) (h : AciaInv c a) : AciaInv c (aciaTake b q a) :=
  { h with }

theorem aciaEnqueue_inv (b : Byte) (h : AciaInv c a) : AciaInv c (aciaEnqueue b a) := { h with }

theorem aciaSettleRead_inv (empty : Bool) (h : AciaInv c a) :
    AciaInv c (aciaSettleRead empty a) := by
  rw [aciaSettleRead_eq]
  split
  · exact h.lowerLine
  · split
    · exact h.raiseLine
    · exact h.setStatus rfl rfl

theorem aciaReadHead_inv (b : Byte) (q : List Byte) (h : AciaInv c a) :
    AciaInv c (aciaReadHead b q a) :=
  aciaSettleRead_inv _ (aciaTake_inv b q h)

theorem aciaSettleReceive_inv (h : AciaInv c a) : AciaInv c (aciaSettleReceive a) := by
  rw [aciaSettleReceive_eq]
  split
  · exact h.raiseLine
  · exact h.setStatus rfl rfl

theorem aciaReceive_inv (b : Byte) (h : AciaInv c a) : AciaInv c (aciaReceive b a) :=
  aciaSettleReceive_inv (aciaEnqueue_inv b h)

end Acia

section Ide

variable {c : Config} {d : Ide}

/-- Rule R201: DRQ stays set exactly while bytes remain. -/
theorem drq_statusAfterSectorRead (cursor : Nat) (s : Byte) :
    (statusAfterSectorRead cursor s).getLsbD 3 = decide (cursor < 512) := by
  unfold statusAfterSectorRead
  split
  · rename_i hlt
    rw [setBits, BitVec.getLsbD_or, decide_eq_true hlt]
    exact Bool.or_true _
  · rename_i hge
    rw [clearBits, BitVec.getLsbD_and, decide_eq_false hge]
    exact Bool.and_false _

theorem ideSectorRead_inv (hlt : d.cursor < 512) (h : IdeInv c d) :
    IdeInv c { d with
      cursor := d.cursor + 1, status := statusAfterSectorRead (d.cursor + 1) d.status } :=
  { h with
    cursorInBuffer := hlt
    drqIffBytesRemain := drq_statusAfterSectorRead (d.cursor + 1) d.status }

/-- Rule R212: dispatch ends with the error register clear, whatever the command left there. -/
theorem ideEndOfDispatch_inv (h : IdeInv c { d with error := 0x00#8 }) :
    IdeInv c (ideEndOfDispatch d) :=
  { h with
    drqIffBytesRemain := by
      rw [ideEndOfDispatch, clearBits, BitVec.getLsbD_and,
        show (~~~df).getLsbD 3 = true from rfl, Bool.and_true]
      exact h.drqIffBytesRemain }

/-- An abort sets ERR and leaves DRQ and the cursor as they are. -/
theorem ideAbort_inv (h : IdeInv c d) : IdeInv c { ideAbort d with error := 0x00#8 } :=
  { h with
    errorClear := rfl
    drqIffBytesRemain := by
      rw [ideAbort, setBits, BitVec.getLsbD_or, show err.getLsbD 3 = false from rfl,
        Bool.or_false]
      exact h.drqIffBytesRemain }

theorem ideIdentify_inv (g : IdeConfig) (h : IdeInv c d) :
    IdeInv c (ideEndOfDispatch (ideIdentifyBody c g d)) :=
  ideEndOfDispatch_inv
    { h with
      cursorInBuffer := Nat.zero_le 512
      drqIffBytesRemain := (by decide : statusIdentified.getLsbD 3 = decide (0 < 512))
      errorClear := rfl }

theorem ideSetFeatures_inv (h : IdeInv c d) :
    IdeInv c (ideEndOfDispatch (ideSetFeaturesBody d)) := by
  refine ideEndOfDispatch_inv ?_
  unfold ideSetFeaturesBody
  split
  · exact { h with errorClear := rfl }
  · exact ideAbort_inv h

end Ide

/-! ### What every operation keeps -/

/-- The invariant but for the stop mark: what an operation keeps even where it faults or refuses. -/
abbrev State.Sound (s : State) : Prop := Inv { s with stop := .running }

/-- `t` can follow `s`: it has the board of `s`, and it is sound where `s` is. -/
structure Keeps (s t : State) : Prop where
  config : t.config = s.config
  acias : t.acias.length = s.acias.length
  ides : t.ides.length = s.ides.length
  dios : t.dios.length = s.dios.length
  sound : s.Sound → t.Sound

theorem Keeps.refl (s : State) : Keeps s s := ⟨rfl, rfl, rfl, rfl, id⟩

theorem Keeps.trans {s t u : State} (hst : Keeps s t) (htu : Keeps t u) : Keeps s u where
  config := htu.config.trans hst.config
  acias := htu.acias.trans hst.acias
  ides := htu.ides.trans hst.ides
  dios := htu.dios.trans hst.dios
  sound := htu.sound ∘ hst.sound

/-! ### The updates of the state -/

section Updates

variable {s : State}

/-- The trace, the stop mark, the result, the inputs and the hook's answers are in no part of the
invariant. -/
theorem Keeps.unchecked (s : State) (tr : List Event) (st : Stop) (r : Result)
    (p : List Presented) (hr : List (Option Byte)) (hw : List Bool) :
    Keeps s { s with trace := tr, stop := st, result := r, pending := p, hookReads := hr,
                     hookWrites := hw } :=
  ⟨rfl, rfl, rfl, rfl, fun h => { h with }⟩

theorem Keeps.setEmuRest {e : Option ReadRest} (h : s.config.rxAtomic = true → e = none) :
    Keeps s { s with emuRest := e } :=
  ⟨rfl, rfl, rfl, rfl, fun k =>
    { k with atomicHasNoRest := fun hat => ⟨h hat, (k.atomicHasNoRest hat).2⟩ }⟩

theorem Keeps.setHostRest {e : Option Nat} (h : s.config.rxAtomic = true → e = none) :
    Keeps s { s with hostRest := e } :=
  ⟨rfl, rfl, rfl, rfl, fun k =>
    { k with atomicHasNoRest := fun hat => ⟨(k.atomicHasNoRest hat).1, h hat⟩ }⟩

/-- A read that the board's `RX_ATOMIC` allows to stop between two sub-steps (rule R165). -/
theorem Keeps.leaveRest {atomic : Bool} (hatomic : s.config.rxAtomic = true → atomic = true)
    (hsplit : atomic = false) (r : ReadRest) : Keeps s (s.leaveRest r) :=
  (Keeps.setEmuRest (e := some r) fun hat =>
    absurd (hsplit.symm.trans (hatomic hat)) Bool.false_ne_true).trans (Keeps.unchecked ..)

theorem Keeps.putAcia {n : Nat} {a a' : Acia} (ha : s.acias[n]? = some a)
    (h : AciaInv s.config a → AciaInv s.config a') : Keeps s (s.putAcia n a') where
  config := rfl
  acias := List.length_set
  ides := rfl
  dios := rfl
  sound k :=
    { k with
      aciaCount := List.length_set.trans k.aciaCount
      acias := fun x hx => (List.mem_or_eq_of_mem_set hx).elim (k.acias x) fun hxa =>
        hxa ▸ h (k.acias a (List.mem_of_getElem? ha)) }

theorem Keeps.putIde {n : Nat} {d d' : Ide} (hd : s.ides[n]? = some d)
    (h : IdeInv s.config d → IdeInv s.config d') : Keeps s (s.putIde n d') where
  config := rfl
  acias := rfl
  ides := List.length_set
  dios := rfl
  sound k :=
    { k with
      ideCount := List.length_set.trans k.ideCount
      ides := fun x hx => (List.mem_or_eq_of_mem_set hx).elim (k.ides x) fun hxd =>
        hxd ▸ h (k.ides d (List.mem_of_getElem? hd)) }

theorem Keeps.putDio (n : Nat) (d : Dio) : Keeps s (s.putDio n d) where
  config := rfl
  acias := rfl
  ides := rfl
  dios := List.length_set
  sound k := { k with dioCount := List.length_set.trans k.dioCount }

/-- Rules R47 and R127: a bank number drops the lowest bit of the byte written. -/
theorem bankNumber_le (v : Byte) : (bankNumber v).toNat ≤ 127 := by
  rw [bankNumber, BitVec.toNat_ushiftRight, Nat.shiftRight_one]
  omega

theorem Keeps.putBankNumber (v : Byte) : Keeps s (s.putBankNumber (bankNumber v)) :=
  ⟨rfl, rfl, rfl, rfl, fun k => { k with bankRange := bankNumber_le v }⟩

theorem Keeps.physWrite {o : Nat} (v : Byte) (ho : o < s.config.size) :
    Keeps s (s.physWrite o v) :=
  ⟨rfl, rfl, rfl, rfl, fun k =>
    { k with
      physCanonical := Memory.wf_write o v k.physCanonical
      physInRange := Memory.below_write v ho k.physInRange }⟩

end Updates

/-! ### The write rules -/

section Writes

variable {s t : State} {dev : Nat} {v : Byte}

theorem Keeps.withAcia {f : Acia → Acia}
    (hf : ∀ a, AciaInv s.config a → AciaInv s.config (f a)) (h : s.withAcia dev f = .ok t) :
    Keeps s t := by
  obtain ⟨a, ha, rfl⟩ := State.withAcia_ok.1 h
  exact .putAcia ha (hf a)

theorem Keeps.updateAcia (dev : Nat) {f : Acia → Acia}
    (hf : ∀ a, AciaInv s.config a → AciaInv s.config (f a)) : Keeps s (s.updateAcia dev f) := by
  unfold State.updateAcia
  split
  · rename_i a ha
    exact .putAcia ha (hf a)
  · exact .refl s

theorem writeAciaMasterReset_keeps (h : writeAciaMasterReset dev v s = .ok t) : Keeps s t :=
  .withAcia (fun a _ => aciaMasterReset_inv v a) h

theorem writeAciaConfigure_keeps (h : writeAciaConfigure dev v s = .ok t) : Keeps s t :=
  .withAcia (fun _ => aciaConfigure_inv v) h

theorem writeAciaData_keeps (h : writeAciaData dev v s = .ok t) : Keeps s t :=
  (Keeps.unchecked ..).trans (.withAcia (s := s.emit (.txByte dev v)) (fun _ => aciaTransmit_inv) h)

theorem aciaWriteAt_keeps {off : Nat} (h : aciaWriteAt off dev v s = .ok t) : Keeps s t := by
  unfold aciaWriteAt at h
  split at h
  · unfold writeAciaControl at h
    split at h
    · exact writeAciaMasterReset_keeps h
    · exact writeAciaConfigure_keeps h
  · exact writeAciaData_keeps h
  · cases h; exact .refl s

theorem Keeps.writeIdeGated {f : IdeConfig → Ide → Ide}
    (hf : ∀ g d, IdeInv s.config d → IdeInv s.config (f g d))
    (h : writeIdeGated f dev s = .ok t) : Keeps s t := by
  obtain ⟨g, d, hd, rfl⟩ := writeIdeGated_ok.1 h
  split
  · exact .putIde (State.ide?_eq.1 hd).2 (hf g d)
  · exact .refl s

/-- Rule R203: a data write that is not refused is dropped. -/
theorem writeIdeData_keeps (h : writeIdeData dev v s = .ok t) : Keeps s t := by
  unfold writeIdeData at h
  split at h
  · cases h
  · split at h
    · split at h; cases h
    · cases h; exact .refl s

theorem writeIdeDrvhead_keeps (h : writeIdeDrvhead dev v s = .ok t) : Keeps s t := by
  unfold writeIdeDrvhead at h
  split at h
  · cases h
  · rename_i hd
    cases h
    exact .putIde (State.ide?_eq.1 hd).2 fun k => { k with }

theorem ideIdentify_keeps (h : ideIdentify dev s = .ok t) : Keeps s t :=
  .writeIdeGated (fun g _ => ideIdentify_inv g) h

theorem ideSetFeatures_keeps (h : ideSetFeatures dev s = .ok t) : Keeps s t :=
  .writeIdeGated (fun _ _ => ideSetFeatures_inv) h

theorem ideUnrecognized_keeps (h : ideUnrecognized dev v s = .ok t) : Keeps s t := by
  unfold ideUnrecognized at h
  split at h
  · cases h
  · rename_i hd
    split at h
    · split at h
      · cases h
      · cases h
        exact .putIde (State.ide?_eq.1 hd).2 (ideEndOfDispatch_inv ∘ ideAbort_inv)
    · cases h; exact .refl s

theorem ideCommand_keeps (h : ideCommand dev v s = .ok t) : Keeps s t := by
  unfold ideCommand at h
  split at h
  · exact ideIdentify_keeps h
  · split at h
    · exact ideSetFeatures_keeps h
    · exact ideUnrecognized_keeps h

theorem ideWriteAt_keeps {off : Nat} (h : ideWriteAt off dev v s = .ok t) : Keeps s t := by
  unfold ideWriteAt at h
  split at h
  case h_1 => exact writeIdeData_keeps h
  case h_7 => exact writeIdeDrvhead_keeps h
  case h_8 => exact ideCommand_keeps h
  case h_9 => cases h; exact .refl s
  all_goals
    refine Keeps.writeIdeGated (fun _ _ k => ?_) h
    exact { k with }

theorem writeDio_keeps (h : writeDio dev v s = .ok t) : Keeps s t := by
  unfold writeDio at h
  split at h
  · cases h; exact .unchecked ..
  · cases h

theorem setDioInput_keeps (h : setDioInput dev v s = .ok t) : Keeps s t := by
  unfold setDioInput at h
  split at h
  · cases h; exact .putDio ..
  · cases h

theorem deviceWrite_keeps {d : DeviceRef} {off : Nat} (h : deviceWrite d off v s = .ok t) :
    Keeps s t := by
  cases d with
  | bank => cases h; exact .putBankNumber v
  | acia n => exact aciaWriteAt_keeps h
  | ide n => exact ideWriteAt_keeps h
  | dio n => exact writeDio_keeps h

theorem busWriteFrom_keeps {p : U16} {ds : List Installed} (h : busWriteFrom p v ds s = .ok t) :
    Keeps s t := by
  induction ds generalizing s with
  | nil => cases h; exact .refl _
  | cons d ds ih =>
    unfold busWriteFrom at h
    split at h
    · exact ih h
    · split at h
      · cases h
      · rename_i hw
        exact (deviceWrite_keeps hw).trans (ih h)

end Writes

/-! ### The read rules and the sub-steps of rule R165 -/

section Reads

variable {s t : State} {atomic : Bool}

theorem deviceRead_keeps {d : DeviceRef} {off : Nat} {o : Option Byte}
    (h : deviceRead atomic d off s = .ok (.answered t o)) : Keeps s t := by
  rcases deviceRead_answered h with
    rfl | ⟨n, a, b, q, -, -, -, ha, -, rfl⟩ | ⟨n, g, e, -, -, he, hlt, rfl⟩ |
      ⟨n, g, e, -, -, he, rfl⟩
  · exact .refl t
  · exact .putAcia ha (aciaReadHead_inv b q)
  · exact .putIde (State.ide?_eq.1 he).2 (ideSectorRead_inv hlt)
  · exact .putIde (State.ide?_eq.1 he).2 fun k => { k with }

/-- A sub-step rd.a leaves its rd.b outstanding; it is reached only where the read is not atomic. -/
theorem deviceRead_split_keeps {d : DeviceRef} {off : Nat} {k : Taken}
    (hatomic : s.config.rxAtomic = true → atomic = true)
    (h : deviceRead atomic d off s = .ok (.split t k)) (r : ReadRest) :
    Keeps s (t.leaveRest r) := by
  obtain ⟨n, a, b, q, -, -, rfl, ha, -, rfl, -⟩ := deviceRead_split h
  exact (Keeps.putAcia ha (aciaTake_inv b q)).trans
    (.leaveRest (s := s.putAcia n (aciaTake b q a)) hatomic rfl r)

theorem busReadFrom_keeps (hatomic : s.config.rxAtomic = true → atomic = true) (p : U16)
    (ds : List Installed) (acc : Byte) : Keeps s (busReadFrom atomic p ds acc s) := by
  induction ds generalizing acc s with
  | nil => exact .unchecked ..
  | cons d ds ih =>
    unfold busReadFrom
    split
    · exact ih hatomic _
    · split
      · exact ih hatomic _
      · rename_i u o hread
        have hkeeps := deviceRead_keeps hread
        have hatomic' : u.config.rxAtomic = true → atomic = true := hkeeps.config ▸ hatomic
        split
        · rename_i hsplit
          rw [Bool.and_eq_true, Bool.not_eq_true'] at hsplit
          exact hkeeps.trans (.leaveRest hatomic' hsplit.1 _)
        · exact hkeeps.trans (ih hatomic' _)
      · rename_i hread
        exact deviceRead_split_keeps hatomic hread _

theorem State.settleRead_keeps (s : State) (k : Taken) : Keeps s (s.settleRead k) :=
  (Keeps.setEmuRest fun _ => rfl).trans (.updateAcia k.dev fun _ => aciaSettleRead_inv k.empty)

theorem resumeRead_keeps (hatomic : s.config.rxAtomic = true → atomic = true) (r : ReadRest) :
    Keeps s (resumeRead atomic r s) := by
  unfold resumeRead
  split
  · exact (Keeps.setEmuRest fun _ => rfl).trans
      (busReadFrom_keeps (s := { s with emuRest := none }) hatomic ..)
  · exact (s.settleRead_keeps _).trans (.unchecked ..)
  · rename_i k b
    have hsettle := s.settleRead_keeps k
    have hatomic' : (s.settleRead k).config.rxAtomic = true → atomic = true :=
      hsettle.config ▸ hatomic
    split
    · rename_i hsplit
      rw [Bool.and_eq_true, Bool.not_eq_true'] at hsplit
      exact hsettle.trans (.leaveRest hatomic' hsplit.1 _)
    · exact hsettle.trans (busReadFrom_keeps hatomic' ..)

theorem State.finishRead_keeps (s : State) : Keeps s s.finishRead := by
  unfold State.finishRead
  split
  · exact .refl s
  · exact resumeRead_keeps (fun _ => rfl) _

theorem State.finishReceive_keeps (s : State) : Keeps s s.finishReceive := by
  unfold State.finishReceive
  split
  · exact .refl s
  · exact (Keeps.setHostRest fun _ => rfl).trans (.updateAcia _ fun _ => aciaSettleReceive_inv)

theorem resumeAgent_keeps (a : Agent) (s : State) : Keeps s (resumeAgent a s) := by
  unfold resumeAgent
  split
  · exact s.finishReceive_keeps
  · split
    · exact .refl s
    · exact resumeRead_keeps id _

end Reads

/-! ### The CPU window -/

section Window

variable (s : State)

theorem cpuRead_keeps (a : U16) : Keeps s (cpuRead s a).1 := by
  obtain ⟨l, h⟩ := cpuRead_state s a
  exact h ▸ .unchecked ..

theorem cpuWrite_keeps (a : U16) (v : Byte) : Keeps s (cpuWrite s a v).1 := by
  obtain ⟨l, h | ⟨hlt, h⟩⟩ := cpuWrite_state s a v <;> rw [h]
  · exact .unchecked ..
  · exact (Keeps.unchecked ..).trans (.physWrite (s := { s with hookWrites := l }) v hlt)

theorem fetchBytes_keeps (a n : Nat) : Keeps s (fetchBytes s a n).1 := by
  obtain ⟨l, h⟩ := fetchBytes_state s a n
  exact h ▸ .unchecked ..

theorem storeBytes_keeps (a : Nat) (bs : List Byte) : Keeps s (storeBytes s a bs).1 := by
  induction bs generalizing s a with
  | nil => exact .refl s
  | cons b bs ih =>
    have hb := cpuWrite_keeps s (BitVec.ofNat 16 a) b
    unfold storeBytes
    split <;> rename_i h <;> rw [h] at hb
    · exact hb.trans (ih _ _)
    · exact hb

theorem getContents_keeps (start : Int) (buffer : List Byte) (index len : Int) :
    Keeps s (getContents start buffer index len s) := by
  have hfetch := fetchBytes_keeps s start.toNat len.toNat
  unfold getContents
  split
  · exact .unchecked ..
  · split <;> rename_i h <;> rw [h] at hfetch <;> exact hfetch.trans (.unchecked ..)

theorem setContents_keeps (start : Int) (buffer : List Byte) (index len : Int) :
    Keeps s (setContents start buffer index len s) := by
  have hstore := storeBytes_keeps s start.toNat (bulkSlice buffer index len)
  unfold setContents
  split
  · exact .unchecked ..
  · split <;> rename_i h <;> rw [h] at hstore <;> exact hstore.trans (.unchecked ..)

end Window

/-! ### Transactions -/

section Transactions

variable {s t : State}

theorem emulation_keeps {body : State → State} (hbody : ∀ u, Keeps u (body u))
    (h : s.emulation body = .next t) : Keeps s t := by
  obtain ⟨-, rfl, -⟩ := State.emulation_eq_next.1 h
  exact s.finishRead_keeps.trans (hbody _)

/-- A device-level read is the bus's read rule of one device and offset. -/
theorem performRead_keeps (d : DeviceRef) (off : Nat)
    (h : s.performRead (fun u => deviceRead u.config.rxAtomic d off u) = .next t) :
    Keeps s t := by
  refine emulation_keeps (fun u => ?_) h
  split
  · exact .unchecked ..
  · rename_i hread
    exact (deviceRead_keeps hread).trans (.unchecked ..)
  · rename_i hread
    exact deviceRead_split_keeps id hread _

theorem settleWrite_keeps {w : Except Refusal State} (h : ∀ u, w = .ok u → Keeps s u) :
    Keeps s (s.settleWrite w) := by
  cases w with
  | error r => exact .unchecked ..
  | ok u => exact (h u rfl).trans (.unchecked ..)

theorem performWrite_keeps {rule : State → Except Refusal State}
    (hrule : ∀ u w, rule u = .ok w → Keeps u w) (h : s.performWrite rule = .next t) :
    Keeps s t :=
  emulation_keeps (fun u => settleWrite_keeps (hrule u)) h

/-- A device-level write that is the bus's write rule of one device and offset. -/
theorem performWrite_device_keeps (d : DeviceRef) (off : Nat) (v : Byte)
    (h : s.performWrite (deviceWrite d off v) = .next t) : Keeps s t :=
  performWrite_keeps (fun _ _ => deviceWrite_keeps) h

/-- Rule R161, and R165 where it splits: rx.b is left outstanding only without `RX_ATOMIC`. -/
theorem receive_keeps (dev : Nat) (v : Byte) (s : State) : Keeps s (receive dev v s) := by
  unfold receive
  split
  · exact settleWrite_keeps fun _ => .withAcia fun _ => aciaReceive_inv v
  · rename_i hsplit
    exact settleWrite_keeps fun _ h =>
      (Keeps.setHostRest fun hat => absurd hat hsplit).trans
        (.withAcia (fun _ => aciaEnqueue_inv v) h)

/-- Every transaction that has a next state keeps the board and the invariant. -/
theorem exec_keeps {i : Instr} (h : exec i s = .next t) : Keeps s t := by
  cases i with
  | busRead p =>
    rw [exec_busRead] at h
    refine emulation_keeps (fun u => busReadFrom_keeps (fun hat => ?_) ..) h
    simp [splitsRead, hat]
  | busWrite p v => exact performWrite_keeps (fun _ _ => busWriteFrom_keeps) h
  | bankWrSelect v => exact performWrite_device_keeps .bank 0 v h
  | bankRd => exact performRead_keeps .bank 0 h
  | aciaWrCtrlMr n v => exact performWrite_keeps (fun _ _ => writeAciaMasterReset_keeps) h
  | aciaWrCtrl n v => exact performWrite_keeps (fun _ _ => writeAciaConfigure_keeps) h
  | aciaWrData n v => exact performWrite_device_keeps (.acia n) 1 v h
  | aciaRdStatus n => exact performRead_keeps (.acia n) 0 h
  | aciaRdData n => exact performRead_keeps (.acia n) 1 h
  | ideRdData n => exact performRead_keeps (.ide n) 0 h
  | ideRdError n => exact performRead_keeps (.ide n) 1 h
  | ideRdSeccnt n => exact performRead_keeps (.ide n) 2 h
  | ideRdSecnum n => exact performRead_keeps (.ide n) 3 h
  | ideRdCyllo n => exact performRead_keeps (.ide n) 4 h
  | ideRdCylhi n => exact performRead_keeps (.ide n) 5 h
  | ideRdDrvhead n => exact performRead_keeps (.ide n) 6 h
  | ideRdStatus n => exact performRead_keeps (.ide n) 7 h
  | ideWrData n v => exact performWrite_device_keeps (.ide n) 0 v h
  | ideWrFeatures n v => exact performWrite_device_keeps (.ide n) 1 v h
  | ideWrSeccnt n v => exact performWrite_device_keeps (.ide n) 2 v h
  | ideWrSecnum n v => exact performWrite_device_keeps (.ide n) 3 v h
  | ideWrCyllo n v => exact performWrite_device_keeps (.ide n) 4 v h
  | ideWrCylhi n v => exact performWrite_device_keeps (.ide n) 5 v h
  | ideWrDrvhead n v => exact performWrite_device_keeps (.ide n) 6 v h
  | ideCmdIdentify n => exact performWrite_keeps (fun _ _ => ideIdentify_keeps) h
  | ideCmdSetFeatures n => exact performWrite_keeps (fun _ _ => ideSetFeatures_keeps) h
  | ideCmdOther n v => exact performWrite_keeps (fun _ _ => ideUnrecognized_keeps) h
  | dioRd n => exact performRead_keeps (.dio n) 0 h
  | dioWr n v => exact performWrite_device_keeps (.dio n) 0 v h
  | memRead a =>
    rw [exec_memRead] at h
    refine emulation_keeps (fun u => ?_) h
    have hread := cpuRead_keeps u a
    split <;> rename_i heq <;> rw [heq] at hread <;> exact hread.trans (.unchecked ..)
  | memWrite a v =>
    rw [exec_memWrite] at h
    refine emulation_keeps (fun u => ?_) h
    have hwrite := cpuWrite_keeps u a v
    split <;> rename_i heq <;> rw [heq] at hwrite <;> exact hwrite.trans (.unchecked ..)
  | memGetContents a b i l => exact emulation_keeps (fun u => getContents_keeps u a b i l) h
  | memSetContents a b i l => exact emulation_keeps (fun u => setContents_keeps u a b i l) h
  | rxData n v =>
    rw [exec_rxData] at h
    obtain ⟨-, rfl, -⟩ := State.transact_eq_next.1 h
    exact s.finishReceive_keeps.trans (receive_keeps n v _)
  | irqQuery n =>
    rw [exec_irqQuery] at h
    refine emulation_keeps (fun u => ?_) h
    split <;> exact .unchecked ..
  | dioSetInput n v => exact performWrite_keeps (fun _ _ => setDioInput_keeps) h

end Transactions

/-! ### Steps -/

section Steps

variable {s t : State}

/-- What a step that answers a next state has done: nothing, for want of an input, or it has taken
the first input and run an agent's outstanding sub-step or a transaction. -/
theorem step_cases_of_next (h : step s = .next t) :
    s.stop = .running ∧ t.stop = .running ∧
      ((s.pending = [] ∧ t = s) ∨
       (∃ a rest, s.pending = .resume a :: rest ∧ t = resumeAgent a { s with pending := rest }) ∨
       (∃ x i rest, s.pending = .transaction x :: rest ∧ decode x = .ok i ∧
         exec i { s with pending := rest } = .next t)) := by
  unfold step State.takeInput at h
  split at h
  · cases h
  · cases h
  rename_i hrun
  refine ⟨hrun, ?_⟩
  match hp : s.pending with
  | [] =>
    simp only [hp] at h
    cases h
    exact ⟨hrun, .inl ⟨rfl, rfl⟩⟩
  | .resume a :: rest =>
    simp only [hp] at h
    obtain ⟨hstop, rfl⟩ := State.outcome_eq_next.1 h
    exact ⟨hstop, .inr (.inl ⟨a, rest, rfl, rfl⟩)⟩
  | .transaction x :: rest =>
    simp only [hp] at h
    split at h
    · rename_i i hi
      exact ⟨(exec_next_running h).2, .inr (.inr ⟨x, i, rest, rfl, hi, h⟩)⟩
    · cases h

theorem step_keeps (h : step s = .next t) : Keeps s t := by
  obtain ⟨-, -, ⟨-, rfl⟩ | ⟨a, rest, -, rfl⟩ | ⟨x, i, rest, -, -, hexec⟩⟩ := step_cases_of_next h
  · exact .refl t
  · exact (Keeps.unchecked ..).trans (resumeAgent_keeps a { s with pending := rest })
  · exact (Keeps.unchecked ..).trans (exec_keeps hexec)

/-- While the machine runs, the invariant is soundness. -/
theorem inv_iff_sound (hrun : s.stop = .running) : Inv s ↔ s.Sound := by
  rw [State.Sound, ← hrun]

/-- Settles O13: every operation keeps soundness, and a next state runs. -/
theorem stepKeepsInv : Obligations.StepKeepsInv := by
  intro s t hinv hstep
  obtain ⟨hs, ht, -⟩ := step_cases_of_next hstep
  exact (inv_iff_sound ht).2 ((step_keeps hstep).sound ((inv_iff_sound hs).1 hinv))

/-- Settles O8: what answers a next state was running. -/
theorem stoppedStateHasNoStep : Obligations.StoppedStateHasNoStep := fun _ _ _ hstopped =>
  ⟨fun h => hstopped (step_cases_of_next h).1, fun h => hstopped (exec_next_running h).1⟩

/-- Settles O14: every operation keeps the board. -/
theorem stepKeepsConfiguration : Obligations.StepKeepsConfiguration := fun _ _ h =>
  have hkeeps := step_keeps h
  ⟨hkeeps.config, hkeeps.acias, hkeeps.ides, hkeeps.dios⟩

/-- Settles O6: the running branch of `step`, at a first input that decodes. -/
theorem stepRunsDecodedTransaction : Obligations.StepRunsDecodedTransaction := by
  intro s x rest i hrun hpending hdecode
  simp only [step, State.takeInput, hrun, hpending, hdecode]

end Steps

/-! ### Power-on (rule R261) -/

section PowerOn

variable {c : Config}

theorem State.construct_of_admitted (h : c.Admitted) :
    State.construct c = .next (State.powerOn c) := by
  rw [State.construct, h]

theorem State.eq_of_mem_powerOn_acias {a : Acia} (h : a ∈ (State.powerOn c).acias) :
    a = aciaPowerOn := by
  obtain ⟨_, -, rfl⟩ := List.mem_map.1 h
  rfl

theorem State.eq_of_mem_powerOn_ides {d : Ide} (h : d ∈ (State.powerOn c).ides) :
    d = idePowerOn c := by
  obtain ⟨_, -, rfl⟩ := List.mem_map.1 h
  rfl

theorem State.eq_of_mem_powerOn_dios {d : Dio} (h : d ∈ (State.powerOn c).dios) :
    d = dioPowerOn := by
  obtain ⟨_, -, rfl⟩ := List.mem_map.1 h
  rfl

theorem aciaPowerOn_inv : AciaInv c aciaPowerOn where
  reservedZero := rfl
  irqRaisesLine h := absurd h (by decide)
  lineHasIrq _ h := absurd h Bool.false_ne_true

/-- Rule R43 at power-on: no byte remains, and condition (f) of decision D31 keeps DRQ clear. -/
theorem idePowerOn_inv (hdrq : c.ideStatusReset.getLsbD 3 = false) : IdeInv c (idePowerOn c) where
  cursorInBuffer := Nat.le_refl 512
  drqIffBytesRemain := hdrq
  errorClear := rfl
  storeCanonical := rfl
  storeInRange := rfl

/-- Settles O10. -/
theorem powerOnValues : Obligations.PowerOnValues := by
  intro c hadmitted
  refine ⟨State.powerOn c, State.construct_of_admitted hadmitted, rfl, List.length_map _,
    List.length_map _, List.length_map _, fun a ha => ?_, fun d hd => ?_, fun d hd => ?_,
    rfl, rfl, rfl, rfl⟩
  · rw [State.eq_of_mem_powerOn_acias ha]
    exact ⟨rfl, rfl, rfl, rfl, rfl⟩
  · rw [State.eq_of_mem_powerOn_ides hd]
    exact ⟨rfl, rfl, rfl, rfl, rfl, rfl, rfl, rfl, rfl⟩
  · rw [State.eq_of_mem_powerOn_dios hd]
    rfl

/-- Settles O11: admission gives what the invariant asks of the reset status and of `MEM_INIT`. -/
theorem powerOnMeetsInv : Obligations.PowerOnMeetsInv := by
  intro c hadmitted
  have hmeets := c.admitted_iff_meets.1 hadmitted
  obtain ⟨hcanonical, hrange⟩ := c.meets_memInit.1 (hmeets .memInit)
  exact
    { admitted := hadmitted
      aciaCount := List.length_map _
      ideCount := List.length_map _
      dioCount := List.length_map _
      bankRange := Nat.zero_le _
      physCanonical := hcanonical
      physInRange := hrange
      acias := fun a ha => State.eq_of_mem_powerOn_acias ha ▸ aciaPowerOn_inv
      ides := fun d hd => State.eq_of_mem_powerOn_ides hd ▸
        idePowerOn_inv (c.meets_statusResetDrq.1 (hmeets .statusResetDrq))
      atomicHasNoRest := fun _ => ⟨rfl, rfl⟩
      running := rfl }

end PowerOn

end Machine

end Sys2Proof
end

section
/-! Port writes (spec/40_port_bus.md rule R115): which row of the opcode table a device's write key
selects, that the transaction it decodes to is the bus's own write rule of that device and offset,
and what a port write does at the devices it reaches. -/

namespace Sys2Proof

open Laws Machine

/-! ### The rows that share a key's high half -/

/-- The rows of one direction, unit and selector, in the decoder's order. -/
def rowsUnder (d : BitVec 1) (u : BitVec 3) (o : BitVec 4) : List Row :=
  (rowsOfPriority 2 ++ rowsOfPriority 1).filter fun r => r.pattern &&& 0xFF00#16 == mkKey d u o 0#8

section Key

variable {d : BitVec 1} {u : BitVec 3} {o : BitVec 4} {v : Byte} {r : Row}

/-- Every row of the table compares the whole high half of a key. -/
theorem mask_high_of_mem_rows (hr : r ∈ rows) : r.mask &&& 0xFF00#16 = 0xFF00#16 := by
  have hall : (rows.all fun r => r.mask &&& 0xFF00#16 == 0xFF00#16) = true := by decide
  exact beq_iff_eq.1 (List.all_eq_true.1 hall r hr)

theorem pattern_high_of_covers (hr : r ∈ rows) (h : r.covers (mkKey d u o v) = true) :
    r.pattern &&& 0xFF00#16 = mkKey d u o 0#8 := by
  rw [← beq_iff_eq.1 h, BitVec.and_assoc, mask_high_of_mem_rows hr, mkKey_high]

/-- The decoder looks for a key's row only among those of its direction, unit and selector. -/
theorem rowOf_mkKey (d : BitVec 1) (u : BitVec 3) (o : BitVec 4) (v : Byte) :
    rowOf (mkKey d u o v) = (rowsUnder d u o).find? fun r => r.covers (mkKey d u o v) := by
  rw [rowsUnder, List.find?_filter, rowOf]
  refine List.find?_congr fun r hr => ?_
  have hmem : r ∈ rows := by
    rcases List.mem_append.1 hr with h | h <;> exact List.mem_of_mem_filter h
  cases h : r.covers (mkKey d u o v) with
  | false => simp
  | true => simp [pattern_high_of_covers hmem h]

end Key

/-- Rule R153: at the ACIA's control register the value's low bits choose the row. -/
theorem decode_aciaControlKey (n : Nat) (v : Byte) :
    decode ⟨mkKey 1#1 2#3 0#4 v, { dev := n }⟩ =
      .ok (if isMasterReset v then .aciaWrCtrlMr n v else .aciaWrCtrl n v) := by
  have hrows : rowsUnder 1#1 2#3 0#4 =
    [⟨"ACIA_WR_CTRL_MR", 0xA003#16, 0xFF03#16, 2, fun v x => .aciaWrCtrlMr x.dev v⟩,
     ⟨"ACIA_WR_CTRL", 0xA000#16, 0xFF00#16, 1, fun v x => .aciaWrCtrl x.dev v⟩] := rfl
  have hreset : ∀ v, (mkKey 1#1 2#3 0#4 v &&& 0xFF03#16 == 0xA003#16) = isMasterReset v := by
    decide
  have hany : (mkKey 1#1 2#3 0#4 v &&& 0xFF00#16 == 0xA000#16) = true :=
    beq_iff_eq.2 (mkKey_high ..)
  simp only [decode, rowOf_mkKey, hrows, List.find?_cons, Row.covers, hreset, hany, keyValue_mkKey]
  cases isMasterReset v <;> rfl

/-- Rule R205: at the IDE's command register the value chooses the row. -/
theorem decode_ideCommandKey (n : Nat) (v : Byte) :
    decode ⟨mkKey 1#1 3#3 7#4 v, { dev := n }⟩ =
      .ok (if v = 0xEC#8 then .ideCmdIdentify n
        else if v = 0xEF#8 then .ideCmdSetFeatures n else .ideCmdOther n v) := by
  have hrows : rowsUnder 1#1 3#3 7#4 =
    [⟨"IDE_CMD_IDENTIFY", 0xB7EC#16, 0xFFFF#16, 2, fun _ x => .ideCmdIdentify x.dev⟩,
     ⟨"IDE_CMD_SET_FEATURES", 0xB7EF#16, 0xFFFF#16, 2, fun _ x => .ideCmdSetFeatures x.dev⟩,
     ⟨"IDE_CMD_OTHER", 0xB700#16, 0xFF00#16, 1, fun v x => .ideCmdOther x.dev v⟩] := rfl
  have hidentify : ∀ v,
      (mkKey 1#1 3#3 7#4 v &&& 0xFFFF#16 == 0xB7EC#16) = decide (v = 0xEC#8) := by decide
  have hfeatures : ∀ v,
      (mkKey 1#1 3#3 7#4 v &&& 0xFFFF#16 == 0xB7EF#16) = decide (v = 0xEF#8) := by decide
  have hany : (mkKey 1#1 3#3 7#4 v &&& 0xFF00#16 == 0xB700#16) = true :=
    beq_iff_eq.2 (mkKey_high ..)
  simp only [decode, rowOf_mkKey, hrows, List.find?_cons, Row.covers, hidentify, hfeatures, hany,
    keyValue_mkKey]
  by_cases hec : v = 0xEC#8
  · simp [hec]
  · by_cases hef : v = 0xEF#8 <;> simp [hec, hef]

namespace Machine

section

variable {d : DeviceRef} {off : Nat} {v : Byte}

/-- A write key of `d` decodes to the transaction that is the bus's write rule of that device and
offset (rules R88 and R101). -/
def DecodesToWrite (d : DeviceRef) (off : Nat) (v : Byte) : Prop :=
  ∃ i, decode (deviceKey 1#1 d off v) = .ok i ∧
    ∀ s, exec i s = s.performWrite (deviceWrite d off v)

/-- Where one row stands alone, and reads any value. -/
theorem DecodesToWrite.of_row (u : BitVec 3) {r : Row} (hunit : unitOf d = u)
    (hrows : rowsUnder 1#1 u (BitVec.ofNat 4 off) = [r]) (hmask : r.mask = 0xFF00#16)
    (hpattern : r.pattern = mkKey 1#1 u (BitVec.ofNat 4 off) 0#8)
    (hexec : ∀ s, exec (r.build v { dev := numberOf d }) s = s.performWrite (deviceWrite d off v)) :
    DecodesToWrite d off v := by
  subst hunit
  refine ⟨_, ?_, hexec⟩
  simp only [decode, deviceKey, rowOf_mkKey, hrows, List.find?_cons,
    covers_anyValue r _ _ _ v hmask hpattern, keyValue_mkKey]

theorem decodesToWrite_aciaControl (n : Nat) (v : Byte) : DecodesToWrite (.acia n) 0 v := by
  refine ⟨_, decode_aciaControlKey n v, fun s => ?_⟩
  change _ = s.performWrite (writeAciaControl n v)
  unfold writeAciaControl
  cases isMasterReset v <;> rfl

theorem decodesToWrite_ideCommand (n : Nat) (v : Byte) : DecodesToWrite (.ide n) 7 v := by
  refine ⟨_, decode_ideCommandKey n v, fun s => ?_⟩
  change _ = s.performWrite (ideCommand n v)
  unfold ideCommand
  split
  · rfl
  · split <;> rfl

/-- Every write key of an offset the device has does. -/
theorem decodesToWrite (hoff : off < portCount (kindOf d)) (v : Byte) : DecodesToWrite d off v := by
  cases d with
  | bank =>
    obtain rfl : off = 0 := Nat.lt_one_iff.1 hoff
    exact .of_row 1#3 rfl rfl rfl rfl fun _ => rfl
  | acia n =>
    match off, hoff with
    | 0, _ => exact decodesToWrite_aciaControl n v
    | 1, _ => exact .of_row 2#3 rfl rfl rfl rfl fun _ => rfl
  | ide n =>
    match off, hoff with
    | 7, _ => exact decodesToWrite_ideCommand n v
    | 0, _ | 1, _ | 2, _ | 3, _ | 4, _ | 5, _ | 6, _ =>
      exact .of_row 3#3 rfl rfl rfl rfl fun _ => rfl
  | dio n =>
    obtain rfl : off = 0 := Nat.lt_one_iff.1 hoff
    exact .of_row 4#3 rfl rfl rfl rfl fun _ => rfl

end

theorem off_lt_of_matchPort {c : Config} {d : Installed} {p : U16} {off : Nat}
    (h : matchPort c d p = some off) : off < portCount (kindOf d.dev) := by
  obtain ⟨hrange, hoff⟩ := Option.ite_none_right_eq_some.1 h
  cases hoff
  omega

/-- What a device transaction of a matched port runs. -/
theorem exec_of_decode_deviceKey_write {c : Config} {p : U16} {d : Installed} {off : Nat} {v : Byte}
    {i : Instr} (hmatch : matchPort c d p = some off)
    (hdecode : decode (deviceKey 1#1 d.dev off v) = .ok i) (s : State) :
    exec i s = s.performWrite (deviceWrite d.dev off v) := by
  obtain ⟨j, hj, hexec⟩ := decodesToWrite (off_lt_of_matchPort hmatch) v
  obtain rfl : i = j := Except.ok.inj (hdecode.symm.trans hj)
  exact hexec s

/-! ### What no device's write reads or changes -/

/-- The board and the registers of `s` with the stop mark, the inputs, the outstanding sub-steps and
the result of `c`. -/
def State.withControlOf (s c : State) : State :=
  { s with
    stop := c.stop, result := c.result, pending := c.pending, hookReads := c.hookReads
    hookWrites := c.hookWrites, emuRest := c.emuRest, hostRest := c.hostRest }

section Control

variable {s t c : State} {dev off : Nat} {v : Byte}

theorem State.withControlOf_self (s : State) : s.withControlOf s = s := rfl

@[simp] theorem State.withControlOf_config : (s.withControlOf c).config = s.config := rfl

@[simp] theorem State.withControlOf_acias : (s.withControlOf c).acias = s.acias := rfl

@[simp] theorem State.withControlOf_dios : (s.withControlOf c).dios = s.dios := rfl

@[simp] theorem State.withControlOf_ide? : (s.withControlOf c).ide? dev = s.ide? dev := rfl

theorem State.withAcia_withControlOf (f : Acia → Acia) :
    (s.withControlOf c).withAcia dev f = (s.withAcia dev f).map (·.withControlOf c) := by
  simp only [State.withAcia, State.withControlOf_acias]
  cases s.acias[dev]? <;> rfl

theorem aciaWriteAt_withControlOf :
    aciaWriteAt off dev v (s.withControlOf c) =
      (aciaWriteAt off dev v s).map (·.withControlOf c) := by
  unfold aciaWriteAt
  split
  · unfold writeAciaControl
    split <;> exact State.withAcia_withControlOf _
  · exact State.withAcia_withControlOf (s := s.emit (.txByte dev v)) _
  · rfl

theorem writeIdeGated_withControlOf (f : IdeConfig → Ide → Ide) :
    writeIdeGated f dev (s.withControlOf c) =
      (writeIdeGated f dev s).map (·.withControlOf c) := by
  simp only [writeIdeGated, State.withControlOf_ide?]
  split
  · rfl
  · split <;> rfl

theorem writeIdeData_withControlOf :
    writeIdeData dev v (s.withControlOf c) = (writeIdeData dev v s).map (·.withControlOf c) := by
  simp only [writeIdeData, State.withControlOf_ide?]
  split
  · rfl
  · split <;> rfl

theorem writeIdeDrvhead_withControlOf :
    writeIdeDrvhead dev v (s.withControlOf c) =
      (writeIdeDrvhead dev v s).map (·.withControlOf c) := by
  simp only [writeIdeDrvhead, State.withControlOf_ide?]
  split <;> rfl

theorem ideUnrecognized_withControlOf :
    ideUnrecognized dev v (s.withControlOf c) =
      (ideUnrecognized dev v s).map (·.withControlOf c) := by
  simp only [ideUnrecognized, State.withControlOf_ide?]
  split
  · rfl
  · split
    · rw [State.withControlOf_config]
      split <;> rfl
    · rfl

theorem ideCommand_withControlOf :
    ideCommand dev v (s.withControlOf c) = (ideCommand dev v s).map (·.withControlOf c) := by
  unfold ideCommand
  split
  · exact writeIdeGated_withControlOf _
  · split
    · exact writeIdeGated_withControlOf _
    · exact ideUnrecognized_withControlOf

theorem ideWriteAt_withControlOf :
    ideWriteAt off dev v (s.withControlOf c) =
      (ideWriteAt off dev v s).map (·.withControlOf c) := by
  unfold ideWriteAt
  split
  case h_1 => exact writeIdeData_withControlOf
  case h_7 => exact writeIdeDrvhead_withControlOf
  case h_8 => exact ideCommand_withControlOf
  case h_9 => rfl
  all_goals exact writeIdeGated_withControlOf _

/-- A device's write neither reads nor changes what `withControlOf` replaces. -/
theorem deviceWrite_withControlOf (d : DeviceRef) :
    deviceWrite d off v (s.withControlOf c) =
      (deviceWrite d off v s).map (·.withControlOf c) := by
  cases d with
  | bank => rfl
  | acia n => exact aciaWriteAt_withControlOf
  | ide n => exact ideWriteAt_withControlOf
  | dio n =>
    simp only [deviceWrite, writeDio, State.withControlOf_dios]
    cases s.dios[n]? <;> rfl

/-- A device's write leaves the stop mark, the inputs, the outstanding sub-steps and the result. -/
theorem deviceWrite_control {d : DeviceRef} (h : deviceWrite d off v s = .ok t) :
    t = t.withControlOf s := by
  have hself := deviceWrite_withControlOf (s := s) (c := s) (off := off) (v := v) d
  rw [State.withControlOf_self, h] at hself
  exact Except.ok.inj hself

theorem deviceWrite_ready {d : DeviceRef} (h : deviceWrite d off v s = .ok t) (hs : s.Ready) :
    t.Ready := by
  rw [deviceWrite_control h]
  exact hs

/-- The result of the transaction before has no part in a device's write. -/
theorem deviceWrite_returning (d : DeviceRef) (r : Result) :
    deviceWrite d off v (s.returning r) = (deviceWrite d off v s).map (·.returning r) := by
  refine (deviceWrite_withControlOf (s := s) (c := s.returning r) d).trans ?_
  cases h : deviceWrite d off v s with
  | error => rfl
  | ok t =>
    rw [deviceWrite_control h]
    rfl

end Control

/-! ### The fan-out -/

section FanOut

variable {s t : State} {p : U16} {v : Byte}

/-- A port write passes over the devices that do not match. -/
theorem busWriteFrom_append {xs ys : List Installed}
    (h : ∀ d ∈ xs, matchPort s.config d p = none) :
    busWriteFrom p v (xs ++ ys) s = busWriteFrom p v ys s := by
  induction xs with
  | nil => rfl
  | cons d ds ih =>
    obtain ⟨hd, hds⟩ := List.forall_mem_cons.1 h
    rw [List.cons_append, busWriteFrom, hd]
    exact ih hds

theorem busWriteFrom_unmatched {ds : List Installed}
    (h : ∀ d ∈ ds, matchPort s.config d p = none) : busWriteFrom p v ds s = .ok s := by
  rw [← List.append_nil ds, busWriteFrom_append h, busWriteFrom]

/-- A matched device's write comes before those of the devices after it. -/
theorem busWriteFrom_cons_ok {d : Installed} {ds : List Installed} {off : Nat}
    (hmatch : matchPort s.config d p = some off) (hwrite : deviceWrite d.dev off v s = .ok t) :
    busWriteFrom p v (d :: ds) s = busWriteFrom p v ds t := by
  simp only [busWriteFrom, hmatch, hwrite]

/-- The last matched device's write decides the outcome. -/
theorem busWriteFrom_last {d : Installed} {ds : List Installed} {off : Nat}
    (hmatch : matchPort s.config d p = some off)
    (hrest : ∀ e ∈ ds, matchPort s.config e p = none) :
    busWriteFrom p v (d :: ds) s = deviceWrite d.dev off v s := by
  cases h : deviceWrite d.dev off v s with
  | error r => simp only [busWriteFrom, hmatch, h]
  | ok t =>
    rw [busWriteFrom_cons_ok hmatch h]
    exact busWriteFrom_unmatched ((deviceWrite_keeps h).config ▸ hrest)

theorem State.performWrite_eq_next (hs : s.Ready) {rule : State → Except Refusal State} :
    s.performWrite rule = .next t ↔
      ∃ u, rule s = .ok u ∧ u.stop = .running ∧ t = u.returning .nothing := by
  rw [State.performWrite, State.emulation_of_ready hs, State.outcome_eq_next]
  cases rule s with
  | error r => simp [State.settleWrite]
  | ok u => simp [State.settleWrite, eq_comm]

/-- A write transaction's outcome is fixed by what its rule answers, but for the result there. -/
theorem State.performWrite_congr (hs : s.Ready) (ht : t.Ready)
    {rule rule' : State → Except Refusal State}
    (h : (rule s).map (·.returning .nothing) = (rule' t).map (·.returning .nothing)) :
    s.performWrite rule = t.performWrite rule' := by
  rw [State.performWrite, State.performWrite, State.emulation_of_ready hs,
    State.emulation_of_ready ht]
  cases hrule : rule s <;> cases hrule' : rule' t <;> rw [hrule, hrule'] at h
  · cases h
    rfl
  · cases h
  · cases h
  · exact congrArg State.outcome (Except.ok.inj h)

/-- Settles O21: the loop runs the two write rules one after the other, and neither reads or changes
what the first transaction leaves when it returns. -/
theorem busWriteReachesBothInInstalledOrder :
    Obligations.BusWriteReachesBothInInstalledOrder := by
  intro s t p v xs ys zs d e off off' i j hs hdevices hothers hd he hi hj hexec
  rw [exec_of_decode_deviceKey_write hd hi] at hexec
  obtain ⟨u, hu, -, rfl⟩ := (State.performWrite_eq_next hs).1 hexec
  obtain ⟨hxys, hzs⟩ := List.forall_mem_append.1 hothers
  obtain ⟨hxs, hys⟩ := List.forall_mem_append.1 hxys
  have hconfig := (deviceWrite_keeps hu).config
  have hready : u.Ready := deviceWrite_ready hu hs
  have hbus : busWriteFrom p v s.config.devices s = deviceWrite e.dev off' v u := by
    rw [hdevices, busWriteFrom_append hxs, busWriteFrom_cons_ok hd hu,
      busWriteFrom_append (by rwa [hconfig]),
      busWriteFrom_last (by rwa [hconfig]) (by rwa [hconfig])]
  rw [exec_busWrite, exec_of_decode_deviceKey_write he hj]
  refine State.performWrite_congr (t := u.returning .nothing) hs hready ?_
  rw [hbus, deviceWrite_returning]
  cases deviceWrite e.dev off' v u <;> rfl

end FanOut

end Machine
end Sys2Proof
end

section
/-! The receive queue (spec/42_acia.md rules R152, R159 and R161) with `RX_ATOMIC`: what one received
byte and one data read do to an ACIA, and runs of them. -/

namespace Sys2Proof.Machine

/-! ### Runs of transactions -/

theorem execAll_cons_of_next {i : Instr} {is : List Instr} {s t : State} (h : exec i s = .next t) :
    execAll (i :: is) s = execAll is t := by
  rw [execAll, h]

/-! ### One ACIA, between whole transactions -/

/-- ACIA `n` holds the registers `a`, on a running board whose transactions are whole, with no
sub-step outstanding. -/
structure State.Serves (s : State) (n : Nat) (a : Acia) : Prop where
  ready : s.Ready
  noHostRest : s.hostRest = none
  atomic : s.config.rxAtomic = true
  acia : s.acias[n]? = some a

section Serves

variable {s : State} {n : Nat} {a : Acia}

theorem State.Serves.putAcia (h : s.Serves n a) (a' : Acia) (r : Result) :
    ((s.putAcia n a').returning r).Serves n a' where
  ready := h.ready
  noHostRest := h.noHostRest
  atomic := h.atomic
  acia := List.getElem?_set_self (List.getElem?_eq_some_iff.1 h.acia).1

theorem exec_rxData_of_serves (h : s.Serves n a) (b : Byte) :
    exec (.rxData n b) s = .next ((s.putAcia n (aciaReceive b a)).returning .nothing) := by
  rw [exec_rxData, State.transact_of_running h.ready.1, State.finishReceive_of_none h.noHostRest,
    receive, if_pos h.atomic, State.withAcia_ok.2 ⟨a, h.acia, rfl⟩]
  exact State.outcome_of_running h.ready.1

theorem exec_aciaRdData_of_serves (h : s.Serves n a) {b : Byte} {q : List Byte}
    (hq : a.rxq = b :: q) :
    exec (.aciaRdData n) s =
      .next ((s.putAcia n (aciaReadHead b q a)).returning (.opinion (some b))) := by
  rw [exec_aciaRdData]
  refine State.performRead_answered h.ready ?_ h.ready.1
  simp only [readAciaData, h.acia, hq, h.atomic, if_true]

end Serves

/-! ### The queue and RDRF -/

@[simp] theorem aciaReceive_rxq (b : Byte) (a : Acia) : (aciaReceive b a).rxq = a.rxq ++ [b] := rfl

theorem aciaReadHead_rxq (b : Byte) (q : List Byte) (a : Acia) :
    (aciaReadHead b q a).rxq = q := rfl

/-- Rule R159: RDRF after a data read is set iff bytes remain. -/
theorem aciaReadHead_rdrf (b : Byte) (q : List Byte) (a : Acia) :
    (aciaReadHead b q a).status.getLsbD 0 = decide (0 < q.length) := by
  rw [aciaReadHead_eq]
  cases q with
  | nil => simp
  | cons c q => cases a.control.getLsbD 7 <;> simp

/-- Received bytes stand behind those already queued, in the order received. -/
theorem execAll_rxData {s : State} {n : Nat} {a : Acia} (h : s.Serves n a) (bs : List Byte) :
    ∃ t a', execAll (bs.map (.rxData n)) s = .next t ∧ t.Serves n a' ∧ a'.rxq = a.rxq ++ bs := by
  induction bs generalizing s a with
  | nil => exact ⟨s, a, rfl, h, (List.append_nil _).symm⟩
  | cons b bs ih =>
    obtain ⟨t, a', hrun, ht, hq⟩ := ih (h.putAcia (aciaReceive b a) .nothing)
    refine ⟨t, a', ?_, ht, by simp [hq]⟩
    rw [List.map_cons, execAll_cons_of_next (exec_rxData_of_serves h b), hrun]

/-- The read that answers byte `k` of the queue leaves those after it, and RDRF tells whether there
are any. -/
theorem execAll_aciaRdData {s : State} {n k : Nat} {a : Acia} {q : List Byte} {b : Byte}
    (h : s.Serves n a) (hq : a.rxq = q) (hk : q[k]? = some b) :
    ∃ u a', execAll (List.replicate (k + 1) (.aciaRdData n)) s = .next u ∧
      u.result = .opinion (some b) ∧ u.acias[n]? = some a' ∧ a'.rxq = q.drop (k + 1) ∧
      a'.status.getLsbD 0 = decide (k + 1 < q.length) := by
  induction q generalizing s k a with
  | nil => cases hk
  | cons c q ih =>
    have hserves := h.putAcia (aciaReadHead c q a) (.opinion (some c))
    rw [List.replicate_succ, execAll_cons_of_next (exec_aciaRdData_of_serves h hq)]
    cases k with
    | zero =>
      cases hk
      exact ⟨_, _, rfl, rfl, hserves.acia, aciaReadHead_rxq b q a,
        (aciaReadHead_rdrf b q a).trans (by simp)⟩
    | succ k =>
      obtain ⟨u, a', hrun, hresult, hacia, hrest, hrdrf⟩ := ih hserves (aciaReadHead_rxq c q a) hk
      exact ⟨u, a', hrun, hresult, hacia, hrest, hrdrf.trans (by simp)⟩

/-- Settles O43: the bytes received are the queue, and every data read takes its head. -/
theorem receiveQueueIsFifo : Obligations.ReceiveQueueIsFifo := by
  intro s n a bs hready hhost hatomic hacia hempty
  obtain ⟨t, a', hrun, ht, hq⟩ := execAll_rxData ⟨hready, hhost, hatomic, hacia⟩ bs
  rw [hempty, List.nil_append] at hq
  exact ⟨t, hrun, fun k b hk => execAll_aciaRdData ht hq hk⟩

end Sys2Proof.Machine
end

section
/-! The keys of transactions (spec/30_encoding.md rules R101, R102 and R104): which row of the table
decides a key, that decoder and encoder invert one another, and which keys spell nothing. -/

namespace Sys2Proof

open Laws Machine

/-! ### The row that decides a key -/

section Decides

variable {r r' : Row} {k : U16}

/-- Two rows that cover one key agree wherever both of their masks look. -/
theorem pattern_and_mask_of_covers (h : r.covers k = true) (h' : r'.covers k = true) :
    r.pattern &&& r'.mask = r'.pattern &&& r.mask := by
  rw [← beq_iff_eq.1 h, ← beq_iff_eq.1 h', BitVec.and_assoc, BitVec.and_assoc,
    BitVec.and_comm r.mask]

/-- Rows of different priority, or that no key meets both of. -/
abbrev Row.Apart (r r' : Row) : Prop :=
  r.priority = r'.priority → r.pattern &&& r'.mask ≠ r'.pattern &&& r.mask

/-- Rule R102: the rows of one priority are disjoint. -/
theorem row_eq_of_covers (hr : r ∈ rows) (hr' : r' ∈ rows) (h : r.covers k = true)
    (h' : r'.covers k = true) (hpriority : r.priority = r'.priority) : r = r' := by
  have hrows : rows.Pairwise Row.Apart := by decide
  have : Std.Symm Row.Apart := ⟨fun _ _ hapart he => (hapart he.symm).symm⟩
  by_contra hne
  exact hrows.forall hr hr' hne hpriority (pattern_and_mask_of_covers h h')

theorem mem_decodeOrder : r ∈ rowsOfPriority 2 ++ rowsOfPriority 1 ↔ r ∈ rows := by
  have hpriorities : ∀ r ∈ rows, r.priority = 2 ∨ r.priority = 1 := by decide
  simp only [rowsOfPriority, List.mem_append, List.mem_filter, beq_iff_eq, ← and_or_left]
  exact and_iff_left_of_imp (hpriorities r)

/-- The decoder tries no row before one of higher priority. -/
theorem decodeOrder_descending :
    (rowsOfPriority 2 ++ rowsOfPriority 1).Pairwise fun r r' => r'.priority ≤ r.priority := by
  decide

/-- Rule R102: the covering row of highest priority. -/
structure Row.Decides (r : Row) (k : U16) : Prop where
  mem : r ∈ rows
  covers : r.covers k = true
  highest : ∀ r' ∈ rows, r'.covers k = true → r'.priority ≤ r.priority

theorem Row.Decides.unique (h : r.Decides k) (h' : r'.Decides k) : r = r' :=
  row_eq_of_covers h.mem h'.mem h.covers h'.covers
    (Nat.le_antisymm (h'.highest r h.mem h.covers) (h.highest r' h'.mem h'.covers))

/-- The row found covers the key, those before it do not, and those after it are no higher. -/
theorem decides_of_rowOf (hrow : rowOf k = some r) : r.Decides k := by
  obtain ⟨hcovers, xs, ys, horder, hbefore⟩ := List.find?_eq_some_iff_append.1 hrow
  have hmem {r'} : r' ∈ rows ↔ r' ∈ xs ++ r :: ys := horder ▸ mem_decodeOrder.symm
  obtain ⟨-, htail, -⟩ := List.pairwise_append.1 (horder ▸ decodeOrder_descending)
  obtain ⟨hafter, -⟩ := List.pairwise_cons.1 htail
  refine ⟨hmem.2 (List.mem_append_right xs List.mem_cons_self), hcovers, fun r' hr' h' => ?_⟩
  rcases List.mem_append.1 (hmem.1 hr') with hxs | hys
  · exact absurd h' (by simpa using hbefore r' hxs)
  · rcases List.mem_cons.1 hys with rfl | hys
    · exact le_rfl
    · exact hafter r' hys

theorem rowOf_eq_some_iff : rowOf k = some r ↔ r.Decides k := by
  refine ⟨decides_of_rowOf, fun h => ?_⟩
  cases hrow : rowOf k with
  | none => exact absurd h.covers (List.find?_eq_none.1 hrow r (mem_decodeOrder.2 h.mem))
  | some q => rw [(decides_of_rowOf hrow).unique h]

/-- The decoder answers what the deciding row builds (rule R103). -/
theorem decode_eq_ok_iff {t : Transaction} {i : Instr} :
    decode t = .ok i ↔ ∃ r, rowOf t.key = some r ∧ r.build (keyValue t.key) t.operands = i := by
  cases h : rowOf t.key <;> simp [decode, h]

end Decides

/-- Settles O3: no two rows of one priority can cover one key, and the decoder's order descends. -/
theorem highestPriorityRowDecides : Obligations.HighestPriorityRowDecides :=
  ⟨fun _ _ _ hr hr' h h' hpriority =>
      congrArg Row.mnemonic (row_eq_of_covers hr hr' h h' hpriority),
    fun _ r hr h hmax => decode_eq_ok_iff.2 ⟨r, rowOf_eq_some_iff.2 ⟨hr, h, hmax⟩, rfl⟩⟩

/-! ### From transactions to keys and back -/

/-- Rule R155. -/
theorem wellFormed_aciaWrCtrlMr {n : Nat} {v : Byte} :
    (Instr.aciaWrCtrlMr n v).WellFormed ↔ isMasterReset v = true := by
  simp [Instr.WellFormed, Instr.illFormed, isMasterReset]

/-- Rule R154. -/
theorem wellFormed_aciaWrCtrl {n : Nat} {v : Byte} :
    (Instr.aciaWrCtrl n v).WellFormed ↔ ¬ isMasterReset v = true := by
  simp [Instr.WellFormed, Instr.illFormed, isMasterReset]

/-- Rule R211. -/
theorem wellFormed_ideCmdOther {n : Nat} {v : Byte} :
    (Instr.ideCmdOther n v).WellFormed ↔ v ≠ 0xEC#8 ∧ v ≠ 0xEF#8 := by
  simp [Instr.WellFormed, Instr.illFormed]

/-- A key under whose direction, unit and selector the table has one row. -/
theorem decode_of_onlyRow {d : BitVec 1} {u : BitVec 3} {o : BitVec 4} {v : Byte} {x : Operands}
    {r : Row} {i : Instr} (hrows : rowsUnder d u o = [r])
    (hcovers : r.covers (mkKey d u o v) = true) (hbuild : r.build v x = i) :
    decode ⟨mkKey d u o v, x⟩ = .ok i := by
  simp only [decode, rowOf_mkKey, hrows, List.find?_cons, hcovers, keyValue_mkKey, hbuild]

/-- Settles O1: where a selector has several rows, being well formed tells which of them it is;
every other selector has one row, which reads any value or one. -/
theorem decodeInvertsEncode : Obligations.DecodeInvertsEncode := by
  intro i hi
  cases i with
  | aciaWrCtrlMr n v =>
    exact (decode_aciaControlKey n v).trans (by rw [if_pos (wellFormed_aciaWrCtrlMr.1 hi)])
  | aciaWrCtrl n v =>
    exact (decode_aciaControlKey n v).trans (by rw [if_neg (wellFormed_aciaWrCtrl.1 hi)])
  | ideCmdIdentify n => exact decode_ideCommandKey n 0xEC#8
  | ideCmdSetFeatures n => exact decode_ideCommandKey n 0xEF#8
  | ideCmdOther n v =>
    obtain ⟨hidentify, hfeatures⟩ := wellFormed_ideCmdOther.1 hi
    exact (decode_ideCommandKey n v).trans (by rw [if_neg hidentify, if_neg hfeatures])
  | busWrite | bankWrSelect | aciaWrData | ideWrData | ideWrFeatures | ideWrSeccnt | ideWrSecnum
  | ideWrCyllo | ideWrCylhi | ideWrDrvhead | dioWr | memWrite | rxData | dioSetInput =>
    exact decode_of_onlyRow rfl (covers_anyValue _ _ _ _ _ rfl rfl) rfl
  | busRead | bankRd | aciaRdStatus | aciaRdData | ideRdData | ideRdError | ideRdSeccnt
  | ideRdSecnum | ideRdCyllo | ideRdCylhi | ideRdDrvhead | ideRdStatus | dioRd | memRead
  | memGetContents | memSetContents | irqQuery =>
    exact decode_of_onlyRow rfl (covers_exact _ _ rfl rfl) rfl

/-! ### The fields of a key -/

section Fields

variable {r : Row} {k k' : U16}

/-- Rule R101: a key is its four fields. -/
theorem mkKey_fields (k : U16) :
    mkKey (keyDirection k) (keyUnit k) (keySelector k) (keyValue k) = k := by
  simp only [mkKey, keyDirection, keyUnit, keySelector, keyValue]
  rw [BitVec.extractLsb'_append_extractLsb'_eq_extractLsb' (by rfl),
    BitVec.extractLsb'_append_extractLsb'_eq_extractLsb' (by rfl),
    BitVec.extractLsb'_append_extractLsb'_eq_extractLsb' (by rfl)]
  exact BitVec.extractLsb'_eq_self

theorem keyDirection_high (k : U16) : keyDirection (k &&& 0xFF00#16) = keyDirection k := by
  rw [keyDirection, BitVec.extractLsb'_and]
  exact BitVec.and_allOnes

theorem keyUnit_high (k : U16) : keyUnit (k &&& 0xFF00#16) = keyUnit k := by
  rw [keyUnit, BitVec.extractLsb'_and]
  exact BitVec.and_allOnes

theorem keySelector_high (k : U16) : keySelector (k &&& 0xFF00#16) = keySelector k := by
  rw [keySelector, BitVec.extractLsb'_and]
  exact BitVec.and_allOnes

/-- A key's high half is its direction, unit and selector. -/
theorem fields_of_high_eq (h : k &&& 0xFF00#16 = k' &&& 0xFF00#16) :
    keyDirection k = keyDirection k' ∧ keyUnit k = keyUnit k' ∧ keySelector k = keySelector k' := by
  refine ⟨?_, ?_, ?_⟩
  · rw [← keyDirection_high, h, keyDirection_high]
  · rw [← keyUnit_high, h, keyUnit_high]
  · rw [← keySelector_high, h, keySelector_high]

theorem eq_mkKey_of_high_eq (h : k &&& 0xFF00#16 = k' &&& 0xFF00#16) :
    k = mkKey (keyDirection k') (keyUnit k') (keySelector k') (keyValue k) := by
  obtain ⟨hdirection, hunit, hselector⟩ := fields_of_high_eq h
  rw [← hdirection, ← hunit, ← hselector, mkKey_fields]

theorem high_eq_of_covers (hr : r ∈ rows) (h : r.covers k = true) :
    k &&& 0xFF00#16 = r.pattern &&& 0xFF00#16 := by
  rw [← beq_iff_eq.1 h, BitVec.and_assoc, mask_high_of_mem_rows hr]

theorem pattern_eq_of_covers (hmask : r.mask = 0xFFFF#16) (h : r.covers k = true) :
    r.pattern = k := by
  rw [← beq_iff_eq.1 h, hmask]
  exact BitVec.and_allOnes

end Fields

/-! ### What a row builds -/

section Build

variable {r : Row} {k : U16}

/-- Rule R103: a row builds a transaction of its own pattern, or of its own direction, unit and
selector with the value it is given. -/
theorem encode_build_key (hr : r ∈ rows) (v : Byte) (x : Operands) :
    (encode (r.build v x)).key =
      if r.mask = 0xFFFF#16 then r.pattern
      else mkKey (keyDirection r.pattern) (keyUnit r.pattern) (keySelector r.pattern) v := by
  have hrows : rows.map (fun r v x => (encode (r.build v x)).key) =
    rows.map fun r v _ => if r.mask = 0xFFFF#16 then r.pattern
      else mkKey (keyDirection r.pattern) (keyUnit r.pattern) (keySelector r.pattern) v := rfl
  exact congrFun (congrFun (List.map_inj_left.1 hrows r hr) v) x

theorem encode_build_key_of_covers (hr : r ∈ rows) (h : r.covers k = true) (x : Operands) :
    (encode (r.build (keyValue k) x)).key = k := by
  rw [encode_build_key hr]
  split
  · exact pattern_eq_of_covers ‹_› h
  · exact (eq_mkKey_of_high_eq (high_eq_of_covers hr h)).symm

/-- No check looks at what travels beside the key, and only transactions of the ACIA's control
register and of the IDE's command register can fail one. -/
theorem illFormed_build (hr : r ∈ rows) (v : Byte) (x : Operands) :
    (r.build v x).illFormed =
      if r.pattern &&& 0xFF00#16 = 0xA000#16 ∨ r.pattern &&& 0xFF00#16 = 0xB700#16 then
        (r.build v {}).illFormed
      else none := by
  have hrows : rows.map (fun r v x => (r.build v x).illFormed) = rows.map fun r v _ =>
    if r.pattern &&& 0xFF00#16 = 0xA000#16 ∨ r.pattern &&& 0xFF00#16 = 0xB700#16 then
      (r.build v {}).illFormed
    else none := rfl
  exact congrFun (congrFun (List.map_inj_left.1 hrows r hr) v) x

/-- The row that decides a key builds a well-formed transaction: at the two registers that have
checks, a value that would fail one is another row's. -/
theorem wellFormed_of_rowOf (hrow : rowOf k = some r) (x : Operands) :
    (r.build (keyValue k) x).WellFormed := by
  obtain ⟨hr, hcovers, -⟩ := decides_of_rowOf hrow
  have hdecode : decode ⟨k, {}⟩ = .ok (r.build (keyValue k) {}) :=
    decode_eq_ok_iff.2 ⟨r, hrow, rfl⟩
  have hhigh := high_eq_of_covers hr hcovers
  rw [Instr.WellFormed, illFormed_build hr, ← hhigh]
  split
  case isFalse => rfl
  case isTrue hregister =>
    rcases hregister with hcontrol | hcommand
    · obtain ⟨v, rfl⟩ : ∃ v, k = mkKey 1#1 2#3 0#4 v :=
        ⟨_, eq_mkKey_of_high_eq (k' := 0xA000#16) hcontrol⟩
      rw [decode_aciaControlKey] at hdecode
      rw [← Except.ok.inj hdecode]
      split
      · exact wellFormed_aciaWrCtrlMr.2 ‹_›
      · exact wellFormed_aciaWrCtrl.2 ‹_›
    · obtain ⟨v, rfl⟩ : ∃ v, k = mkKey 1#1 3#3 7#4 v :=
        ⟨_, eq_mkKey_of_high_eq (k' := 0xB700#16) hcommand⟩
      rw [decode_ideCommandKey] at hdecode
      rw [← Except.ok.inj hdecode]
      split
      · rfl
      · split
        · rfl
        · exact wellFormed_ideCmdOther.2 ⟨‹_›, ‹_›⟩

end Build

/-- Settles O2: both hold of what the deciding row builds. -/
theorem decodedIsWellFormedAndKeepsKey : Obligations.DecodedIsWellFormedAndKeepsKey := by
  intro t i hdecode
  obtain ⟨r, hrow, rfl⟩ := decode_eq_ok_iff.1 hdecode
  obtain ⟨hr, hcovers, -⟩ := decides_of_rowOf hrow
  exact ⟨wellFormed_of_rowOf hrow _, encode_build_key_of_covers hr hcovers _⟩

/-! ### Keys that spell nothing -/

/-- A key some row covers has a selector of its unit, and a read key carries no value. -/
theorem spelled_of_covers {r : Row} {k : U16} (hr : r ∈ rows) (h : r.covers k = true) :
    (keySelector k).toNat < selectorCount (keyUnit k) ∧
      (keyDirection k = 0#1 → keyValue k = 0#8) := by
  have hrows : ∀ r ∈ rows, (keySelector r.pattern).toNat < selectorCount (keyUnit r.pattern) ∧
      (keyDirection r.pattern = 0#1 → r.mask = 0xFFFF#16 ∧ keyValue r.pattern = 0#8) := by decide
  obtain ⟨hcount, hread⟩ := hrows r hr
  obtain ⟨hdirection, hunit, hselector⟩ := fields_of_high_eq (high_eq_of_covers hr h)
  rw [hdirection, hunit, hselector]
  refine ⟨hcount, fun hd => ?_⟩
  obtain ⟨hmask, hvalue⟩ := hread hd
  rwa [← pattern_eq_of_covers hmask h]

/-- Settles O4: each item names a key that no row covers. -/
theorem unspelledKeysAreInvalid : Obligations.UnspelledKeysAreInvalid := by
  intro t hkey
  cases hdecode : decode t with
  | error e => exact ⟨e, rfl⟩
  | ok i =>
    obtain ⟨r, hrow, -⟩ := decode_eq_ok_iff.1 hdecode
    obtain ⟨hr, hcovers, -⟩ := decides_of_rowOf hrow
    obtain ⟨hcount, hread⟩ := spelled_of_covers hr hcovers
    have hselector (u : BitVec 3) :
        ¬ (keyUnit t.key = u ∧ selectorCount u ≤ (keySelector t.key).toNat) := by
      rintro ⟨rfl, hle⟩
      exact absurd hcount (Nat.not_lt.2 hle)
    rcases hkey with hu | hside | hmem | hdio | hide | hacia | hbank | ⟨hu, ho⟩ | ⟨hd, hv⟩
    · exact absurd ⟨hu, Nat.zero_le _⟩ (hselector 7#3)
    · exact absurd hside (hselector 6#3)
    · exact absurd hmem (hselector 5#3)
    · exact absurd hdio (hselector 4#3)
    · exact absurd hide (hselector 3#3)
    · exact absurd hacia (hselector 2#3)
    · exact absurd hbank (hselector 1#3)
    · exact absurd ⟨hu, Nat.pos_of_ne_zero fun h => ho (BitVec.eq_of_toNat_eq h)⟩ (hselector 0#3)
    · exact absurd (hread hd) hv

/-- Settles O7: the two branches of `step` at which no transaction runs. -/
theorem stepWithoutTransaction : Obligations.StepWithoutTransaction := by
  refine ⟨fun s x rest e hrun hpending hdecode => ?_, fun s hrun hpending => ?_⟩
  · simp only [step, State.takeInput, hrun, hpending, hdecode]
  · simp only [step, State.takeInput, hrun, hpending]

/-- Settles O5: each word is one key, which the decoder evaluates. -/
theorem sampleKeysDecode : Obligations.SampleKeysDecode := by
  unfold Obligations.SampleKeysDecode
  decide

end Sys2Proof
end

section
/-! A port read or write that one device matches (spec/40_port_bus.md rules R113 to R115), and the
device transactions whose operand names no device of the board (spec/30_encoding.md rule R86). -/

namespace Sys2Proof.Machine

/-! ### Device reads -/

/-- A read key of `d` decodes to the transaction that is the bus's read rule of that device and
offset (rules R87 and R101). -/
def DecodesToRead (d : DeviceRef) (off : Nat) : Prop :=
  ∃ i, decode (deviceKey 0#1 d off 0x00#8) = .ok i ∧
    ∀ s, exec i s = s.performRead fun t => deviceRead t.config.rxAtomic d off t

theorem DecodesToRead.of_encode {d : DeviceRef} {off : Nat} (i : Instr) (hi : i.WellFormed)
    (hkey : encode i = deviceKey 0#1 d off 0x00#8)
    (hexec : ∀ s, exec i s = s.performRead fun t => deviceRead t.config.rxAtomic d off t) :
    DecodesToRead d off :=
  ⟨i, hkey ▸ decodeInvertsEncode i hi, hexec⟩

/-- Every read key of an offset the device has does. -/
theorem decodesToRead {d : DeviceRef} {off : Nat} (hoff : off < portCount (kindOf d)) :
    DecodesToRead d off := by
  cases d with
  | bank =>
    obtain rfl : off = 0 := Nat.lt_one_iff.1 hoff
    exact .of_encode .bankRd rfl rfl fun _ => rfl
  | acia n =>
    match off, hoff with
    | 0, _ => exact .of_encode (.aciaRdStatus n) rfl rfl fun _ => rfl
    | 1, _ => exact .of_encode (.aciaRdData n) rfl rfl fun _ => rfl
  | ide n =>
    match off, hoff with
    | 0, _ => exact .of_encode (.ideRdData n) rfl rfl fun _ => rfl
    | 1, _ => exact .of_encode (.ideRdError n) rfl rfl fun _ => rfl
    | 2, _ => exact .of_encode (.ideRdSeccnt n) rfl rfl fun _ => rfl
    | 3, _ => exact .of_encode (.ideRdSecnum n) rfl rfl fun _ => rfl
    | 4, _ => exact .of_encode (.ideRdCyllo n) rfl rfl fun _ => rfl
    | 5, _ => exact .of_encode (.ideRdCylhi n) rfl rfl fun _ => rfl
    | 6, _ => exact .of_encode (.ideRdDrvhead n) rfl rfl fun _ => rfl
    | 7, _ => exact .of_encode (.ideRdStatus n) rfl rfl fun _ => rfl
  | dio n =>
    obtain rfl : off = 0 := Nat.lt_one_iff.1 hoff
    exact .of_encode (.dioRd n) rfl rfl fun _ => rfl

/-- What a device transaction of a matched port runs. -/
theorem exec_of_decode_deviceKey_read {c : Config} {p : U16} {d : Installed} {off : Nat} {i : Instr}
    (hmatch : matchPort c d p = some off)
    (hdecode : decode (deviceKey 0#1 d.dev off 0x00#8) = .ok i) (s : State) :
    exec i s = s.performRead fun t => deviceRead t.config.rxAtomic d.dev off t := by
  obtain ⟨j, hj, hexec⟩ := decodesToRead (off_lt_of_matchPort hmatch)
  obtain rfl : i = j := Except.ok.inj (hdecode.symm.trans hj)
  exact hexec s

section OnlyDevice

variable {s t : State} {p : U16} {d : Installed} {off : Nat}

/-- A device read that returns an opinion has run its rule to the end. -/
theorem State.performRead_eq_next_opinion (hs : s.Ready) {rule : State → Except Refusal ReadStep}
    {o : Option Byte} (hnext : s.performRead rule = .next t) (hresult : t.result = .opinion o) :
    ∃ u, rule s = .ok (.answered u o) ∧ u.stop = .running ∧ t = u.returning (.opinion o) := by
  rw [State.performRead, State.emulation_of_ready hs, State.outcome_eq_next] at hnext
  obtain ⟨hrun, rfl⟩ := hnext
  match hrule : rule s with
  | .error r => simp [hrule] at hrun
  | .ok (.split u k) => simp [hrule] at hresult
  | .ok (.answered u o') =>
    obtain rfl : o' = o := by simpa [hrule] using hresult
    exact ⟨u, rfl, by simpa [hrule] using hrun, rfl⟩

/-- The last matched device's answer is the last one ANDed. -/
theorem busReadFrom_last {atomic : Bool} {ds : List Installed} {acc : Byte} {o : Option Byte}
    (hmatch : matchPort s.config d p = some off)
    (hread : deviceRead atomic d.dev off s = .ok (.answered t o))
    (hrest : ∀ e ∈ ds, matchPort s.config e p = none) :
    busReadFrom atomic p (d :: ds) acc s = t.returning (.byte (acc &&& o.getD 0xFF#8)) := by
  have hmore : BusRest.matchesMore s.config ⟨p, ds, acc⟩ = false := by
    simpa [BusRest.matchesMore] using hrest
  simp only [busReadFrom, hmatch, hread, hmore, Bool.and_false, Bool.false_eq_true, if_false]
  exact busReadFrom_unmatched ((deviceRead_keeps hread).config ▸ hrest)

/-- Settles O19: the loop runs the one matched device's read rule, as that device's own transaction
does, and ANDs its answer to the floating bus. -/
theorem busReadActsAsItsOnlyDevice : Obligations.BusReadActsAsItsOnlyDevice := by
  intro s t p xs ys d off i o hs hatomic hdevices hothers hmatch hdecode hnext hresult
  rw [exec_of_decode_deviceKey_read hmatch hdecode] at hnext
  obtain ⟨u, hread, hrun, rfl⟩ := State.performRead_eq_next_opinion hs hnext hresult
  obtain ⟨hxs, hys⟩ := List.forall_mem_append.1 hothers
  have hsplits : splitsRead s.config p = false := by simp [splitsRead, hatomic]
  rw [hatomic] at hread
  rw [exec_busRead, State.emulation_of_ready hs, hsplits, hdevices, busReadFrom_append hxs,
    Bool.not_false, busReadFrom_last hmatch hread hys,
    show 0xFF#8 &&& o.getD 0xFF#8 = o.getD 0xFF#8 from BitVec.allOnes_and]
  exact State.outcome_of_running hrun

/-- Settles O20: the loop runs the one matched device's write rule, as that device's own transaction
does. -/
theorem busWriteActsAsItsOnlyDevice : Obligations.BusWriteActsAsItsOnlyDevice := by
  intro s p v xs ys d off i hs hdevices hothers hmatch hdecode
  obtain ⟨hxs, hys⟩ := List.forall_mem_append.1 hothers
  rw [exec_busWrite, exec_of_decode_deviceKey_write hmatch hdecode]
  refine State.performWrite_congr hs hs ?_
  rw [hdevices, busWriteFrom_append hxs, busWriteFrom_last hmatch hys]

end OnlyDevice

/-! ### Missing devices -/

section Missing

variable {s : State} {n : Nat}

theorem State.ide?_of_missing (h : s.ides[n]? = none) : s.ide? n = none := by
  cases hide : s.ide? n with
  | none => rfl
  | some gd => simp [(State.ide?_eq.1 hide).2] at h

theorem exec_acia_of_missing (hs : s.Ready) (hhost : s.hostRest = none) (h : s.acias[n]? = none)
    (v : Byte) : ∀ i ∈ [Instr.aciaWrCtrlMr n v, .aciaWrCtrl n v, .aciaWrData n v, .aciaRdStatus n,
      .aciaRdData n, .rxData n v, .irqQuery n], exec i s = .refused (.noSuchDevice .acia n) := by
  have hreceive : (receive n v s).outcome = .refused (.noSuchDevice .acia n) := by
    unfold receive
    split <;> simp [State.withAcia, State.settleWrite, h]
  simp only [List.forall_mem_cons]
  refine ⟨State.performWrite_error hs ?_, State.performWrite_error hs ?_,
    State.performWrite_error hs ?_, State.performRead_error hs ?_, ?_, ?_, ?_,
    List.forall_mem_nil _⟩
  · simp only [writeAciaMasterReset, State.withAcia, h]
  · simp only [writeAciaConfigure, State.withAcia, h]
  · simp only [writeAciaData, State.withAcia, State.emit_acias, h]
  · simp only [readAciaStatus, h]
  · rw [exec_aciaRdData]
    exact State.performRead_error hs (by simp only [readAciaData, h])
  · rw [exec_rxData, State.transact_of_running hs.1, State.finishReceive_of_none hhost, hreceive]
  · rw [exec_irqQuery, State.emulation_of_ready hs, h]
    rfl

theorem exec_ide_of_missing (hs : s.Ready) (h : s.ides[n]? = none) (v : Byte) :
    ∀ i ∈ [Instr.ideRdData n, .ideRdError n, .ideRdSeccnt n, .ideRdSecnum n, .ideRdCyllo n,
      .ideRdCylhi n, .ideRdDrvhead n, .ideRdStatus n, .ideWrData n v, .ideWrFeatures n v,
      .ideWrSeccnt n v, .ideWrSecnum n v, .ideWrCyllo n v, .ideWrCylhi n v, .ideWrDrvhead n v,
      .ideCmdIdentify n, .ideCmdSetFeatures n, .ideCmdOther n v],
      exec i s = .refused (.noSuchDevice .ide n) := by
  have hide := State.ide?_of_missing h
  have hregister (f : Ide → Byte) :
      s.performRead (readIdeRegister f n) = .refused (.noSuchDevice .ide n) :=
    State.performRead_error hs (by simp only [readIdeRegister, hide])
  have hgated (f : IdeConfig → Ide → Ide) :
      s.performWrite (writeIdeGated f n) = .refused (.noSuchDevice .ide n) :=
    State.performWrite_error hs (by simp only [writeIdeGated, hide])
  simp only [List.forall_mem_cons]
  refine ⟨State.performRead_error hs ?_, hregister _, hregister _, hregister _, hregister _,
    hregister _, hregister _, hregister _, State.performWrite_error hs ?_, hgated _, hgated _,
    hgated _, hgated _, hgated _, State.performWrite_error hs ?_, ?_, hgated _,
    State.performWrite_error hs ?_, List.forall_mem_nil _⟩
  · simp only [readIdeData, hide]
  · simp only [writeIdeData, hide]
  · simp only [writeIdeDrvhead, hide]
  · exact State.performWrite_error hs (by simp only [ideIdentify, writeIdeGated, hide])
  · simp only [ideUnrecognized, hide]

theorem exec_dio_of_missing (hs : s.Ready) (h : s.dios[n]? = none) (v : Byte) :
    ∀ i ∈ [Instr.dioRd n, .dioWr n v, .dioSetInput n v],
      exec i s = .refused (.noSuchDevice .dio n) := by
  simp only [List.forall_mem_cons]
  refine ⟨State.performRead_error hs ?_, State.performWrite_error hs ?_,
    State.performWrite_error hs ?_, List.forall_mem_nil _⟩
  · simp only [readDio, h]
  · simp only [writeDio, h]
  · simp only [setDioInput, h]

/-- Settles O15: every rule looks up the device it is for first. -/
theorem missingInstanceIsRefused : Obligations.MissingInstanceIsRefused := fun _ _ v hs hhost =>
  ⟨fun h => exec_acia_of_missing hs hhost h v, fun h => exec_ide_of_missing hs h v,
    fun h => exec_dio_of_missing hs h v⟩

end Missing

end Sys2Proof.Machine
end

section
/-! The port decoder (spec/40_port_bus.md rules R111 and R112), and what holds of every port read
and of a port that no device matches (rules R113, R115 and R119). -/

namespace Sys2Proof.Machine

variable {s : State} {p : U16}

/-- Rules R111 and R112. -/
theorem matchPort_eq_some_iff {c : Config} {d : Installed} {off : Nat} :
    matchPort c d p = some off ↔
      (off : Int) = ((p &&& c.portMask).toNat : Int) - ((d.base &&& c.portMask).toNat : Int) ∧
      off < portCount (kindOf d.dev) := by
  simp only [matchPort, portOffset, Option.ite_none_right_eq_some, Option.some.injEq]
  omega

theorem exec_busRead_of_ready (hs : s.Ready) :
    exec (.busRead p) s =
      .next (busReadFrom (!splitsRead s.config p) p s.config.devices 0xFF#8 s) := by
  rw [exec_busRead, State.emulation_of_ready hs]
  obtain ⟨as, is, r, e, hframe⟩ :=
    busReadFrom_frame (!splitsRead s.config p) p s.config.devices 0xFF#8 s
  exact State.outcome_of_running (hframe ▸ hs.1)

/-- Settles O16: the decoder's bounds are those of the range, and a loop that no device matches
passes over them all. -/
theorem unmatchedPortFloats : Obligations.UnmatchedPortFloats := by
  refine ⟨fun c d p off => ?_, fun s p v hs hnone => ⟨?_, ?_⟩⟩
  · rw [matchPort_eq_some_iff]
    cases d.dev <;> exact Iff.rfl
  · rw [exec_busRead_of_ready hs, busReadFrom_unmatched hnone]
    rfl
  · rw [exec_busWrite]
    exact State.performWrite_ok hs (busWriteFrom_unmatched hnone) hs.1

/-- A port read runs to its end and returns a byte, or, unless it is `atomic`, it stops between two
of its sub-steps. -/
theorem busReadFrom_ends_or_splits (atomic : Bool) (ds : List Installed) (acc : Byte) (s : State) :
    ((busReadFrom atomic p ds acc s).emuRest = s.emuRest ∧
      ∃ v, (busReadFrom atomic p ds acc s).result = .byte v) ∨
    (atomic = false ∧ (busReadFrom atomic p ds acc s).result = .inFlight ∧
      ∃ r, (busReadFrom atomic p ds acc s).emuRest = some r) := by
  cases atomic with
  | true => exact .inl (busReadFrom_atomic p ds acc s)
  | false =>
    induction ds generalizing acc s with
    | nil => exact .inl ⟨rfl, acc, rfl⟩
    | cons d ds ih =>
      unfold busReadFrom
      split
      · exact ih _ _
      · split
        · exact ih _ _
        · rename_i hread
          obtain ⟨as, is, rfl⟩ := deviceRead_frame hread
          split
          · exact .inr ⟨rfl, rfl, _, rfl⟩
          · exact ih _ _
        · exact .inr ⟨rfl, rfl, _, rfl⟩

/-- Settles O18: no branch of the loop sets the stop mark, and only a read that splits leaves a
sub-step outstanding. -/
theorem busReadNeverStops : Obligations.BusReadNeverStops := by
  intro s p hs
  refine ⟨_, exec_busRead_of_ready hs, ?_, ?_⟩
  · rcases busReadFrom_ends_or_splits (p := p) (!splitsRead s.config p) s.config.devices 0xFF#8 s
      with ⟨hrest, hbyte⟩ | ⟨hsplits, hsplit⟩
    · exact .inl ⟨hrest.trans hs.2, hbyte⟩
    · simp only [splitsRead, Bool.not_eq_false', Bool.and_eq_true, Bool.not_eq_true'] at hsplits
      exact .inr ⟨hsplits.1, hsplit⟩
  · obtain ⟨as, is, r, e, hframe⟩ :=
      busReadFrom_frame (!splitsRead s.config p) p s.config.devices 0xFF#8 s
    rw [hframe]

end Sys2Proof.Machine
end

section
/-! Port reads and writes over several matching devices (spec/40_port_bus.md rules R113 to R118).
The loop over the devices is a fold of what each device's turn does. No device is installed twice
(decision D31), so a device's turn finds the registers it had before the loop. -/

namespace Sys2Proof

/-! ### The devices of an admitted board -/

section Admitted

variable {c : Config}

theorem Config.meets_deviceNumbers :
    c.meets .deviceNumbers = true ↔
      c.aciaNumbers = List.range c.aciaNumbers.length ∧
      c.ideNumbers = List.range c.ides.length ∧
      c.dioNumbers = List.range c.dioNumbers.length := by
  simp [Config.meets, and_assoc]

/-- No device is installed twice. -/
theorem Config.Admitted.distinct (h : c.Admitted) :
    c.devices.Pairwise fun d e => d.dev ≠ e.dev := by
  have hmeets := c.admitted_iff_meets.1 h
  obtain ⟨hacias, hides, hdios⟩ := Config.meets_deviceNumbers.1 (hmeets .deviceNumbers)
  obtain ⟨b, hbank⟩ :=
    List.length_eq_one_iff.1 (c.meets_oneBankedMemory.1 (hmeets .oneBankedMemory))
  have numbered {g : DeviceRef → Option Nat} {n : Nat}
      (hn : (c.devices.filterMap fun d => g d.dev) = List.range n) :
      c.devices.Pairwise fun d e => ∀ k, g d.dev = some k → g e.dev ≠ some k := by
    refine (List.pairwise_filterMap.1 (hn ▸ List.nodup_range)).imp fun hne k hd he => ?_
    exact hne k hd k he rfl
  have banks : c.devices.Pairwise fun d e => d.dev = .bank → e.dev ≠ .bank := by
    have hfilter := List.pairwise_filter.1 (hbank ▸ List.pairwise_singleton (fun _ _ => False) b)
    exact hfilter.imp fun hne hd he => hne (beq_iff_eq.2 hd) (beq_iff_eq.2 he)
  refine (((numbered hacias).and (numbered hides)).and ((numbered hdios).and banks)).imp ?_
  rintro d e ⟨⟨hacia, hide⟩, hdio, hbank⟩ heq
  cases hd : d.dev with
  | bank => exact hbank hd (heq ▸ hd)
  | acia n => exact hacia n (by rw [hd]; rfl) (by rw [← heq, hd]; rfl)
  | ide n => exact hide n (by rw [hd]; rfl) (by rw [← heq, hd]; rfl)
  | dio n => exact hdio n (by rw [hd]; rfl) (by rw [← heq, hd]; rfl)

end Admitted

namespace Machine

/-! ### A loop over the devices -/

section Loop

variable {α : Type} {f : State → α} {turn : State → Installed → State} {s : State}
  {ds : List Installed} {d : Installed}

/-- What no device's turn changes, the loop does not change. -/
theorem foldl_unchanged (hkeeps : ∀ u e, Keeps u (turn u e))
    (hturn : ∀ u, Keeps s u → ∀ e ∈ ds, f (turn u e) = f u) : f (ds.foldl turn s) = f s := by
  induction ds generalizing s with
  | nil => rfl
  | cons d ds ih =>
    rw [List.foldl_cons, ih fun u hu e he =>
      hturn u ((hkeeps s d).trans hu) e (List.mem_cons_of_mem d he)]
    exact hturn s (.refl s) d List.mem_cons_self

theorem foldl_keeps (hkeeps : ∀ u e, Keeps u (turn u e)) : Keeps s (ds.foldl turn s) := by
  induction ds generalizing s with
  | nil => exact .refl s
  | cons d ds ih => exact (hkeeps s d).trans ih

/-- Registers that only one device's turn changes are, after the loop, as that turn leaves them,
from the values they had before the loop. -/
theorem foldl_eq_turn (hkeeps : ∀ u e, Keeps u (turn u e)) (hd : d ∈ ds)
    (hdistinct : ds.Pairwise fun d e => d.dev ≠ e.dev)
    (hothers : ∀ u, Keeps s u → ∀ e ∈ ds, e.dev ≠ d.dev → f (turn u e) = f u) :
    ∃ u, Keeps s u ∧ f u = f s ∧ f (ds.foldl turn s) = f (turn u d) := by
  obtain ⟨xs, ys, rfl⟩ := List.append_of_mem hd
  obtain ⟨-, hys, hxs⟩ := List.pairwise_append.1 hdistinct
  refine ⟨xs.foldl turn s, foldl_keeps hkeeps, ?_, ?_⟩
  · exact foldl_unchanged hkeeps fun u hu e he =>
      hothers u hu e (List.mem_append_left _ he) (hxs e he d List.mem_cons_self)
  · rw [List.foldl_append, List.foldl_cons]
    exact foldl_unchanged hkeeps fun u hu e he =>
      hothers u (((foldl_keeps hkeeps).trans (hkeeps _ d)).trans hu) e
        (List.mem_append_right _ (List.mem_cons_of_mem d he))
        (List.rel_of_pairwise_cons hys he).symm

end Loop

/-! ### Reads -/

/-- The state after a device's turn in an atomic read of port `p`. -/
def State.afterRead (p : U16) (s : State) (d : Installed) : State :=
  match matchPort s.config d p with
  | none => s
  | some off =>
    match deviceRead true d.dev off s with
    | .ok (.answered t _) => t
    | _ => s

section Read

variable {s t : State} {p : U16} {d e : Installed} {n : Nat}

/-- A device's turn does nothing, or runs its read of the matched offset to the end. -/
theorem afterRead_cases (p : U16) (s : State) (d : Installed) :
    s.afterRead p d = s ∨ ∃ off o, matchPort s.config d p = some off ∧
      deviceRead true d.dev off s = .ok (.answered (s.afterRead p d) o) := by
  unfold State.afterRead
  split
  · exact .inl rfl
  · rename_i off hmatch
    split
    · rename_i o hread
      exact .inr ⟨off, o, hmatch, hread⟩
    · exact .inl rfl

theorem afterRead_keeps (p : U16) (s : State) (d : Installed) : Keeps s (s.afterRead p d) := by
  obtain hsame | ⟨off, o, -, hread⟩ := afterRead_cases p s d
  · exact hsame.symm ▸ .refl s
  · exact deviceRead_keeps hread

theorem afterRead_frame (p : U16) (s : State) (d : Installed) :
    ∃ as is, s.afterRead p d = { s with acias := as, ides := is } := by
  obtain hsame | ⟨off, o, -, hread⟩ := afterRead_cases p s d
  · exact ⟨s.acias, s.ides, hsame⟩
  · exact deviceRead_frame hread

/-- Only a read of an ACIA's data register changes that ACIA. -/
theorem afterRead_acia_unread (h : d.dev = .acia n → matchPort s.config d p ≠ some 1) :
    (s.afterRead p d).acias[n]? = s.acias[n]? := by
  obtain hsame | ⟨off, o, hmatch, hread⟩ := afterRead_cases p s d
  · rw [hsame]
  · rcases deviceRead_answered hread with
      hsame | ⟨m, a, b, q, hdev, rfl, -, -, -, ht⟩ | ⟨m, g, c, -, -, -, -, ht⟩ |
        ⟨m, g, c, -, -, -, ht⟩
    · rw [hsame]
    · have hne : m ≠ n := fun hmn => h (hmn ▸ hdev) hmatch
      rw [ht, State.putAcia_acias, List.getElem?_set_ne hne]
    · rw [ht, State.putIde_acias]
    · rw [ht, State.putIde_acias]

/-- Only a read of an IDE controller's data register changes that controller. -/
theorem afterRead_ide_unread (h : d.dev = .ide n → matchPort s.config d p ≠ some 0) :
    (s.afterRead p d).ides[n]? = s.ides[n]? := by
  obtain hsame | ⟨off, o, hmatch, hread⟩ := afterRead_cases p s d
  · rw [hsame]
  · have hput {m : Nat} {c : Ide} (hdev : d.dev = .ide m) (hoff : off = 0) :
        (s.putIde m c).ides[n]? = s.ides[n]? :=
      List.getElem?_set_ne fun hmn => h (hdev.trans (congrArg _ hmn))
        (hmatch.trans (congrArg _ hoff))
    rcases deviceRead_answered hread with
      hsame | ⟨m, a, b, q, -, -, -, -, -, ht⟩ | ⟨m, g, c, hdev, hoff, -, -, ht⟩ |
        ⟨m, g, c, hdev, hoff, -, ht⟩
    · rw [hsame]
    · rw [ht, State.putAcia_ides]
    · rw [ht, hput hdev hoff]
    · rw [ht, hput hdev hoff]

/-- An ACIA after a read of its data register (rules R159 and R160). -/
def aciaDataRead (a : Acia) : Acia :=
  match a.rxq with
  | [] => a
  | b :: q => aciaReadHead b q a

/-- An IDE controller after a read of its data register (rules R182 and R201). -/
def ideDataRead (g : IdeConfig) (d : Ide) : Ide :=
  if driveSelected d.drvhead g.driveIndex then
    if d.cursor < 512 then
      { d with
        cursor := d.cursor + 1, status := statusAfterSectorRead (d.cursor + 1) d.status }
    else { d with draws := d.draws + 1 }
  else d

theorem afterRead_acia_data {a : Acia} (hdev : d.dev = .acia n)
    (hmatch : matchPort s.config d p = some 1) (ha : s.acias[n]? = some a) :
    (s.afterRead p d).acias[n]? = some (aciaDataRead a) := by
  obtain ⟨hlt, -⟩ := List.getElem?_eq_some_iff.1 ha
  simp only [State.afterRead, hmatch, hdev, deviceRead, aciaReadAt, readAciaData, ha, aciaDataRead]
  cases a.rxq with
  | nil => exact ha
  | cons b q => exact List.getElem?_set_self hlt

theorem afterRead_ide_data {g : IdeConfig} {c : Ide} (hdev : d.dev = .ide n)
    (hmatch : matchPort s.config d p = some 0) (hc : s.ide? n = some (g, c)) :
    (s.afterRead p d).ides[n]? = some (ideDataRead g c) := by
  obtain ⟨-, hide⟩ := State.ide?_eq.1 hc
  obtain ⟨hlt, -⟩ := List.getElem?_eq_some_iff.1 hide
  simp only [State.afterRead, hmatch, hdev, deviceRead, ideReadAt, readIdeData, hc, ideDataRead]
  by_cases hselected : driveSelected c.drvhead g.driveIndex = true
  · by_cases hcursor : c.cursor < 512 <;> simp [hselected, hcursor, hlt]
  · simp [hselected, hide]

/-- The opinion a read rule answers with. -/
def opinionOf : Except Refusal ReadStep → Option Byte
  | .ok (.answered _ o) => o
  | _ => none

theorem answerTo_of_match {off : Nat} (h : matchPort s.config d p = some off) :
    s.answerTo p d = opinionOf (deviceRead true d.dev off s) := by
  simp only [State.answerTo, h]
  rfl

theorem opinionOf_readIdeRegister_congr (h : t.ide? n = s.ide? n) (f : Ide → Byte) :
    opinionOf (readIdeRegister f n t) = opinionOf (readIdeRegister f n s) := by
  simp only [readIdeRegister, h]
  split
  · rfl
  · split <;> rfl

theorem opinionOf_readIdeData_congr (h : t.ide? n = s.ide? n) :
    opinionOf (readIdeData n t) = opinionOf (readIdeData n s) := by
  simp only [readIdeData, h]
  split
  · rfl
  · split
    · split <;> rfl
    · rfl

theorem opinionOf_ideReadAt_congr (h : t.ide? n = s.ide? n) (off : Nat) :
    opinionOf (ideReadAt off n t) = opinionOf (ideReadAt off n s) := by
  unfold ideReadAt
  split
  case h_1 => exact opinionOf_readIdeData_congr h
  case h_9 => rfl
  all_goals exact opinionOf_readIdeRegister_congr h _

theorem opinionOf_aciaReadAt_congr (h : t.acias[n]? = s.acias[n]?) (off : Nat) :
    opinionOf (aciaReadAt true off n t) = opinionOf (aciaReadAt true off n s) := by
  unfold aciaReadAt
  split
  · simp only [readAciaStatus, h]
    cases s.acias[n]? <;> rfl
  · simp only [readAciaData, h]
    split
    · rfl
    · split <;> rfl
  · rfl

/-- A device answers from the latches and its own registers. -/
theorem answerTo_congr (hconfig : t.config = s.config) (hdios : t.dios = s.dios)
    (hacia : ∀ n, d.dev = .acia n → t.acias[n]? = s.acias[n]?)
    (hide : ∀ n, d.dev = .ide n → t.ides[n]? = s.ides[n]?) : t.answerTo p d = s.answerTo p d := by
  cases hmatch : matchPort s.config d p with
  | none => simp only [State.answerTo, hconfig, hmatch]
  | some off =>
    rw [answerTo_of_match hmatch, answerTo_of_match (hconfig ▸ hmatch)]
    cases hdev : d.dev with
    | bank => rfl
    | acia n => exact opinionOf_aciaReadAt_congr (hacia n hdev) off
    | ide n =>
      refine opinionOf_ideReadAt_congr ?_ off
      simp only [State.ide?, hconfig, hide n hdev]
    | dio n =>
      simp only [deviceRead, readDio, hdios]
      cases s.dios[n]? <;> rfl

/-- One device's turn does not change what another answers. -/
theorem answerTo_afterRead (h : d.dev ≠ e.dev) :
    (s.afterRead p d).answerTo p e = s.answerTo p e := by
  obtain ⟨as, is, hframe⟩ := afterRead_frame p s d
  refine answerTo_congr (by rw [hframe]) (by rw [hframe]) (fun n he => ?_) fun n he => ?_
  · exact afterRead_acia_unread fun hd => absurd (hd.trans he.symm) h
  · exact afterRead_ide_unread fun hd => absurd (hd.trans he.symm) h

/-- An atomic port read is one device's turn after another, each answer ANDed in (rule R113). -/
theorem busReadFrom_cons (ds : List Installed) (acc : Byte) :
    busReadFrom true p (d :: ds) acc s =
      busReadFrom true p ds (acc &&& (s.answerTo p d).getD 0xFF#8) (s.afterRead p d) := by
  have hfloat : acc &&& 0xFF#8 = acc := BitVec.and_allOnes
  cases hmatch : matchPort s.config d p with
  | none => simp [busReadFrom, State.answerTo, State.afterRead, hmatch, hfloat]
  | some off =>
    match hread : deviceRead true d.dev off s with
    | .error _ => simp [busReadFrom, State.answerTo, State.afterRead, hmatch, hread, hfloat]
    | .ok (.answered t o) => simp [busReadFrom, State.answerTo, State.afterRead, hmatch, hread]
    | .ok (.split t k) =>
      obtain ⟨n, a, b, q, -, -, hf, -⟩ := deviceRead_split hread
      cases hf

/-- The loop's state, and the AND of the answers the devices give before the read (rule R114). -/
theorem busReadFrom_eq_foldl {ds : List Installed}
    (hdistinct : ds.Pairwise fun d e => d.dev ≠ e.dev) (acc : Byte) (s : State) :
    busReadFrom true p ds acc s = (ds.foldl (State.afterRead p) s).returning
      (.byte ((ds.filterMap (s.answerTo p)).foldl (· &&& ·) acc)) := by
  induction ds generalizing acc s with
  | nil => rfl
  | cons d ds ih =>
    obtain ⟨hd, hds⟩ := List.pairwise_cons.1 hdistinct
    have hanswers : ds.filterMap ((s.afterRead p d).answerTo p) = ds.filterMap (s.answerTo p) :=
      List.filterMap_congr fun e he => answerTo_afterRead (hd e he)
    have hfloat : acc &&& 0xFF#8 = acc := BitVec.and_allOnes
    rw [busReadFrom_cons, ih hds, hanswers, List.foldl_cons, List.filterMap_cons]
    cases s.answerTo p d with
    | none => rw [Option.getD_none, hfloat]
    | some v => rfl

/-- Rules R159 and R160, by the length of the queue. -/
theorem aciaDataRead_eq (a : Acia) : aciaDataRead a =
    match a.rxq with
    | [] => a
    | [b] => { a with hold := b, rxq := [], status := a.status &&& 0x7E#8, irqLine := false }
    | b :: q =>
      if a.control.getLsbD 7 = true then
        { a with hold := b, rxq := q, status := a.status ||| 0x81#8, irqLine := true }
      else { a with hold := b, rxq := q, status := a.status ||| 0x01#8 } := by
  match h : a.rxq with
  | [] => simp only [aciaDataRead, h]
  | [b] => simp only [aciaDataRead, h, aciaReadHead_eq, if_true]
  | b :: c :: q => simp only [aciaDataRead, h, aciaReadHead_eq, reduceCtorEq, if_false]

/-- Rules R182 and R201. -/
theorem ideDataRead_eq (g : IdeConfig) (d : Ide) : ideDataRead g d =
    if (d.drvhead.getLsbD 4).toNat ≠ g.driveIndex then d
    else if d.cursor < 512 then { d with
      cursor := d.cursor + 1
      status := if d.cursor + 1 < 512 then d.status ||| 0x08#8 else d.status &&& 0xF7#8 }
    else { d with draws := d.draws + 1 } := by
  unfold ideDataRead driveSelected
  by_cases h : (d.drvhead.getLsbD 4).toNat = g.driveIndex
  · rw [if_pos (beq_iff_eq.2 h), if_neg (not_not.2 h)]
    rfl
  · rw [if_neg (mt beq_iff_eq.1 h), if_pos h]

section Loop

variable {ds : List Installed} (hdistinct : ds.Pairwise fun d e => d.dev ≠ e.dev)
include hdistinct

theorem foldl_afterRead_acia_data {a : Acia} (ha : s.acias[n]? = some a) (hd : d ∈ ds)
    (hdev : d.dev = .acia n) (hmatch : matchPort s.config d p = some 1) :
    (ds.foldl (State.afterRead p) s).acias[n]? = some (aciaDataRead a) := by
  obtain ⟨u, hu, hsame, hturn⟩ := foldl_eq_turn (s := s) (f := fun u => u.acias[n]?)
    (afterRead_keeps p) hd hdistinct fun u _ e _ he =>
      afterRead_acia_unread fun h => absurd (h.trans hdev.symm) he
  exact hturn.trans (afterRead_acia_data hdev (hu.config ▸ hmatch) (hsame.trans ha))

theorem foldl_afterRead_ide_data {g : IdeConfig} {c : Ide} (hc : s.ide? n = some (g, c))
    (hd : d ∈ ds) (hdev : d.dev = .ide n) (hmatch : matchPort s.config d p = some 0) :
    (ds.foldl (State.afterRead p) s).ides[n]? = some (ideDataRead g c) := by
  obtain ⟨u, hu, hsame, hturn⟩ := foldl_eq_turn (s := s) (f := fun u => u.ides[n]?)
    (afterRead_keeps p) hd hdistinct fun u _ e _ he =>
      afterRead_ide_unread fun h => absurd (h.trans hdev.symm) he
  obtain ⟨hg, hide⟩ := State.ide?_eq.1 hc
  have hcu : u.ide? n = some (g, c) := State.ide?_eq.2 ⟨hu.config ▸ hg, hsame.trans hide⟩
  exact hturn.trans (afterRead_ide_data hdev (hu.config ▸ hmatch) hcu)

end Loop

/-- Settles O17: the atomic loop is the fold of the devices' turns, and each turn finds the
registers its device had before the read. -/
theorem busReadIsWiredAnd : Obligations.BusReadIsWiredAnd := by
  intro s p hinv hatomic
  have hs : s.Ready := ⟨hinv.running, (hinv.atomicHasNoRest hatomic).1⟩
  have hdistinct := hinv.admitted.distinct
  have hsplits : splitsRead s.config p = false := by simp [splitsRead, hatomic]
  have hexec := exec_busRead_of_ready (p := p) hs
  rw [hsplits, Bool.not_false, busReadFrom_eq_foldl hdistinct] at hexec
  obtain ⟨t, ht, hrest, hframe⟩ := busReadNeverStops s p hs
  obtain rfl := Host.Outcome.next.inj (hexec.symm.trans ht)
  refine ⟨_, hexec, rfl, fun n hn => ?_, fun n hn => ?_, fun n a ha hn => ?_,
    fun n g c hc hn => ?_, ?_⟩
  · exact foldl_unchanged (f := fun u => u.acias[n]?) (afterRead_keeps p) fun u hu d hd =>
      afterRead_acia_unread (hu.config ▸ hn d hd)
  · exact foldl_unchanged (f := fun u => u.ides[n]?) (afterRead_keeps p) fun u hu d hd =>
      afterRead_ide_unread (hu.config ▸ hn d hd)
  · obtain ⟨d, hd, hdev, hmatch⟩ := hn
    exact (foldl_afterRead_acia_data hdistinct ha hd hdev hmatch).trans
      (congrArg some (aciaDataRead_eq a))
  · obtain ⟨d, hd, hdev, hmatch⟩ := hn
    exact (foldl_afterRead_ide_data hdistinct hc hd hdev hmatch).trans
      (congrArg some (ideDataRead_eq g c))
  · obtain ⟨hnone, -⟩ := hrest.resolve_right fun h => by simp [hatomic] at h
    rw [hnone.trans hs.2.symm] at hframe
    exact hframe

end Read

end Machine
end Sys2Proof
end

section
/-! Port writes over several matching devices (spec/40_port_bus.md rule R115, spec/20_memory.md rule
R81): what a device's write that is not refused leaves, and the fan-out as a fold of those
writes. -/

namespace Sys2Proof.Machine

/-! ### The registers an installed device has -/

/-- The board has the registers of a device. -/
def State.Has (s : State) : DeviceRef → Prop
  | .bank => True
  | .acia n => n < s.acias.length
  | .ide n => n < s.config.ides.length ∧ n < s.ides.length
  | .dio n => n < s.dios.length

section Has

variable {s t : State}

theorem Keeps.has {d : DeviceRef} (h : Keeps s t) (hs : s.Has d) : t.Has d := by
  obtain ⟨hconfig, hacias, hides, hdios, -⟩ := h
  cases d with
  | bank => exact trivial
  | acia n => exact Nat.lt_of_lt_of_eq hs hacias.symm
  | ide n => exact ⟨hconfig.symm ▸ hs.1, hides.symm ▸ hs.2⟩
  | dio n => exact Nat.lt_of_lt_of_eq hs hdios.symm

/-- Rule R23: one record per installed device. -/
theorem Inv.has {d : Installed} (h : Inv s) (hd : d ∈ s.config.devices) : s.Has d.dev := by
  have hnumbers := (s.config.admitted_iff_meets.1 h.admitted) .deviceNumbers
  obtain ⟨hacias, hides, hdios⟩ := Config.meets_deviceNumbers.1 hnumbers
  have numbered {g : DeviceRef → Option Nat} {n m : Nat} (hn : g d.dev = some n)
      (hm : (s.config.devices.filterMap fun d => g d.dev) = List.range m) : n < m :=
    List.mem_range.1 (hm ▸ List.mem_filterMap.2 ⟨d, hd, hn⟩)
  cases hdev : d.dev with
  | bank => exact trivial
  | acia n => exact Nat.lt_of_lt_of_eq (numbered (by rw [hdev]; rfl) hacias) h.aciaCount.symm
  | ide n =>
    have hlt := numbered (by rw [hdev]; rfl) hides
    exact ⟨hlt, h.ideCount ▸ hlt⟩
  | dio n => exact Nat.lt_of_lt_of_eq (numbered (by rw [hdev]; rfl) hdios) h.dioCount.symm

end Has

/-! ### One device's write -/

/-- What a write of `v` that is not refused leaves at each device: the registers and the event it
writes, and nothing else. A dropped write of an IDE controller (rule R183) puts back its
registers. -/
inductive Written (v : Byte) (s : State) : DeviceRef → Nat → State → Prop
  | bank : Written v s .bank 0 (s.putBankNumber (bankNumber v))
  | control {n : Nat} {a : Acia} (hn : n < s.acias.length) (hcontrol : a.control = v) :
    Written v s (.acia n) 0 (s.putAcia n a)
  | transmit {n : Nat} {a : Acia} : Written v s (.acia n) 1 ((s.emit (.txByte n v)).putAcia n a)
  | ide {n off : Nat} {c : Ide} (hn : n < s.ides.length) (hdrvhead : off = 6 → c.drvhead = v) :
    Written v s (.ide n) off (s.putIde n c)
  | dio {n : Nat} : Written v s (.dio n) 0 (s.emit (.dioOut n v))

section Write

variable {s : State} {v : Byte} {n off : Nat}

section Ide

variable {g : IdeConfig} {c : Ide} (hc : s.ide? n = some (g, c))
include hc

theorem State.putIde_self : s.putIde n c = s := by
  obtain ⟨-, hide⟩ := State.ide?_eq.1 hc
  obtain ⟨hlt, rfl⟩ := List.getElem?_eq_some_iff.1 hide
  rw [State.putIde, List.set_getElem_self]

theorem writeIdeGated_eq_putIde (f : IdeConfig → Ide → Ide) :
    ∃ e, writeIdeGated f n s = .ok (s.putIde n e) := by
  simp only [writeIdeGated, hc]
  split
  · exact ⟨_, rfl⟩
  · exact ⟨c, by rw [State.putIde_self hc]⟩

/-- Under the policy `abort` no command is refused. -/
theorem ideCommand_eq_putIde (habort : s.config.ideUnlistedCmd = .abort) (v : Byte) :
    ∃ e, ideCommand n v s = .ok (s.putIde n e) := by
  unfold ideCommand
  split
  · exact writeIdeGated_eq_putIde hc _
  · split
    · exact writeIdeGated_eq_putIde hc _
    · simp only [ideUnrecognized, hc, habort, reduceCtorEq, false_and, if_false]
      split
      · exact ⟨_, rfl⟩
      · exact ⟨c, by rw [State.putIde_self hc]⟩

theorem ideWriteAt_eq_putIde (hoff : off < 8) (hdata : off ≠ 0)
    (hcommand : off = 7 → s.config.ideUnlistedCmd = .abort) (v : Byte) :
    ∃ e, ideWriteAt off n v s = .ok (s.putIde n e) ∧ (off = 6 → e.drvhead = v) := by
  match off, hoff with
  | 6, _ =>
    refine ⟨{ c with drvhead := v }, ?_, fun _ => rfl⟩
    simp only [ideWriteAt, writeIdeDrvhead, hc]
  | 7, _ =>
    obtain ⟨e, he⟩ := ideCommand_eq_putIde hc (hcommand rfl) v
    exact ⟨e, he, nofun⟩
  | 1, _ | 2, _ | 3, _ | 4, _ | 5, _ =>
    obtain ⟨e, he⟩ := writeIdeGated_eq_putIde hc _
    exact ⟨e, he, nofun⟩

end Ide

/-- Rule R153: either path of a control write stores the byte. -/
theorem writeAciaControl_eq_putAcia (hn : n < s.acias.length) (v : Byte) :
    ∃ a, writeAciaControl n v s = .ok (s.putAcia n a) ∧ a.control = v := by
  have ha := List.getElem?_eq_getElem hn
  unfold writeAciaControl
  split
  · exact ⟨_, State.withAcia_ok.2 ⟨_, ha, rfl⟩, rfl⟩
  · exact ⟨_, State.withAcia_ok.2 ⟨_, ha, rfl⟩, rfl⟩

/-- Only a write of an IDE controller's data register, or of its command register under the policy
`refuse`, is refused (rules R203 and R211). -/
theorem deviceWrite_written {d : DeviceRef} (hhas : s.Has d) (hoff : off < portCount (kindOf d))
    (hide : ∀ n, d = .ide n → off ≠ 0 ∧ (off = 7 → s.config.ideUnlistedCmd = .abort)) (v : Byte) :
    ∃ t, deviceWrite d off v s = .ok t ∧ Written v s d off t := by
  cases d with
  | bank =>
    obtain rfl : off = 0 := Nat.lt_one_iff.1 hoff
    exact ⟨_, rfl, .bank⟩
  | acia n =>
    match off, hoff with
    | 0, _ =>
      obtain ⟨a, hwrite, hcontrol⟩ := writeAciaControl_eq_putAcia hhas v
      exact ⟨_, hwrite, .control hhas hcontrol⟩
    | 1, _ =>
      exact ⟨_, State.withAcia_ok.2 ⟨_, List.getElem?_eq_getElem hhas, rfl⟩, .transmit⟩
  | ide n =>
    obtain ⟨hg, hc⟩ := hhas
    have hide? := State.ide?_eq.2 ⟨List.getElem?_eq_getElem hg, List.getElem?_eq_getElem hc⟩
    obtain ⟨hdata, hcommand⟩ := hide n rfl
    obtain ⟨e, hwrite, hdrvhead⟩ := ideWriteAt_eq_putIde hide? hoff hdata hcommand v
    exact ⟨_, hwrite, .ide hc hdrvhead⟩
  | dio n =>
    obtain rfl : off = 0 := Nat.lt_one_iff.1 hoff
    refine ⟨_, ?_, .dio⟩
    simp only [deviceWrite, writeDio, List.getElem?_eq_getElem hhas]

end Write

/-- The event of a write of `v` at a device, if it is one of the two that emit. -/
def writeEvent (v : Byte) : DeviceRef → Option Nat → Option Event
  | .acia n, some 1 => some (.txByte n v)
  | .dio n, some 0 => some (.dioOut n v)
  | _, _ => none

/-- The state without the registers that a port write can change. -/
def State.unwritten (s : State) : State :=
  { s with bank := { s.bank with bank := 0x00#8 }, acias := [], ides := [], trace := [] }

theorem State.eq_of_unwritten_eq {s t : State} (h : t.unwritten = s.unwritten) :
    t = { s with
      bank := { s.bank with bank := t.bank.bank }, acias := t.acias, ides := t.ides
      trace := t.trace } :=
  congrArg (fun u : State => { u with
    bank := { u.bank with bank := t.bank.bank }, acias := t.acias, ides := t.ides
    trace := t.trace }) h

namespace Written

variable {v : Byte} {s t : State} {d : DeviceRef} {n off : Nat}

theorem unwritten (h : Written v s d off t) : t.unwritten = s.unwritten := by
  cases h <;> rfl

theorem trace (h : Written v s d off t) :
    t.trace = s.trace ++ (writeEvent v d (some off)).toList := by
  cases h <;> simp [writeEvent]

theorem bank_of_ne (h : Written v s d off t) (hd : d ≠ .bank) : t.bank.bank = s.bank.bank := by
  cases h with
  | bank => exact absurd rfl hd
  | control | transmit | ide | dio => rfl

theorem acia_of_ne (h : Written v s d off t) (hd : d ≠ .acia n) : t.acias[n]? = s.acias[n]? := by
  cases h with
  | control | transmit => exact List.getElem?_set_ne fun h => hd (congrArg _ h)
  | bank | ide | dio => rfl

theorem ide_of_ne (h : Written v s d off t) (hd : d ≠ .ide n) : t.ides[n]? = s.ides[n]? := by
  cases h with
  | ide => exact List.getElem?_set_ne fun h => hd (congrArg _ h)
  | bank | control | transmit | dio => rfl

theorem bank_eq (h : Written v s .bank off t) : t.bank.bank = v >>> 1 := by
  cases h
  rfl

theorem acia_control (h : Written v s (.acia n) 0 t) :
    ∃ a, t.acias[n]? = some a ∧ a.control = v := by
  cases h with
  | control hn hcontrol => exact ⟨_, List.getElem?_set_self hn, hcontrol⟩

theorem ide_drvhead (h : Written v s (.ide n) 6 t) : ∃ e, t.ides[n]? = some e ∧ e.drvhead = v := by
  cases h with
  | ide hn hdrvhead => exact ⟨_, List.getElem?_set_self hn, hdrvhead rfl⟩

end Written

/-! ### The fan-out as a fold -/

/-- The state after a device's turn in a write of `v` to port `p`. -/
def State.afterWrite (p : U16) (v : Byte) (s : State) (d : Installed) : State :=
  match matchPort s.config d p with
  | none => s
  | some off =>
    match deviceWrite d.dev off v s with
    | .ok t => t
    | .error _ => s

/-- The board has device `d`, and `d` does not refuse a write to port `p`. -/
def State.Takes (s : State) (p : U16) (d : Installed) : Prop :=
  s.Has d.dev ∧ ∀ n, d.dev = .ide n → matchPort s.config d p ≠ some 0 ∧
    (matchPort s.config d p = some 7 → s.config.ideUnlistedCmd = .abort)

section FanOut

variable {s t : State} {p : U16} {v : Byte} {d : Installed} {ds : List Installed} {off : Nat}

theorem Keeps.takes (h : Keeps s t) (hs : s.Takes p d) : t.Takes p d :=
  ⟨h.has hs.1, h.config.symm ▸ hs.2⟩

theorem afterWrite_of_unmatched (h : matchPort s.config d p = none) : s.afterWrite p v d = s := by
  simp only [State.afterWrite, h]

theorem afterWrite_of_takes (h : s.Takes p d) (hmatch : matchPort s.config d p = some off) :
    deviceWrite d.dev off v s = .ok (s.afterWrite p v d) ∧
      Written v s d.dev off (s.afterWrite p v d) := by
  obtain ⟨hhas, hide⟩ := h
  rw [hmatch] at hide
  obtain ⟨t, hwrite, hwritten⟩ := deviceWrite_written hhas (off_lt_of_matchPort hmatch)
    (fun n hn => by simpa using hide n hn) v
  have hafter : s.afterWrite p v d = t := by simp only [State.afterWrite, hmatch, hwrite]
  exact hafter.symm ▸ ⟨hwrite, hwritten⟩

/-- What a device's write does not change, its turn does not. -/
theorem afterWrite_unchanged {α : Type} {f : State → α} (h : s.Takes p d)
    (hf : ∀ {t off}, matchPort s.config d p = some off → Written v s d.dev off t → f t = f s) :
    f (s.afterWrite p v d) = f s := by
  cases hmatch : matchPort s.config d p with
  | none => rw [afterWrite_of_unmatched hmatch]
  | some off => exact hf hmatch (afterWrite_of_takes h hmatch).2

theorem afterWrite_keeps (p : U16) (v : Byte) (s : State) (d : Installed) :
    Keeps s (s.afterWrite p v d) := by
  unfold State.afterWrite
  split
  · exact .refl s
  · split
    · rename_i hwrite
      exact deviceWrite_keeps hwrite
    · exact .refl s

theorem afterWrite_trace (h : s.Takes p d) :
    (s.afterWrite p v d).trace =
      s.trace ++ (writeEvent v d.dev (matchPort s.config d p)).toList := by
  cases hmatch : matchPort s.config d p with
  | none => simp [afterWrite_of_unmatched hmatch, writeEvent]
  | some off => exact (afterWrite_of_takes h hmatch).2.trace

theorem busWriteFrom_cons_of_takes (h : s.Takes p d) :
    busWriteFrom p v (d :: ds) s = busWriteFrom p v ds (s.afterWrite p v d) := by
  cases hmatch : matchPort s.config d p with
  | none => simp only [busWriteFrom, hmatch, afterWrite_of_unmatched hmatch]
  | some off => exact busWriteFrom_cons_ok hmatch (afterWrite_of_takes h hmatch).1

section Takes

variable (htakes : ∀ d ∈ ds, s.Takes p d)
include htakes

/-- The fan-out completes, and its events stand in installed order. -/
theorem busWriteFrom_eq_foldl :
    busWriteFrom p v ds s = .ok (ds.foldl (State.afterWrite p v) s) ∧
      (ds.foldl (State.afterWrite p v) s).trace =
        s.trace ++ ds.filterMap fun d => writeEvent v d.dev (matchPort s.config d p) := by
  induction ds generalizing s with
  | nil => exact ⟨rfl, (List.append_nil _).symm⟩
  | cons d ds ih =>
    obtain ⟨hd, hds⟩ := List.forall_mem_cons.1 htakes
    have hkeeps := afterWrite_keeps p v s d
    obtain ⟨hrun, htrace⟩ := ih fun e he => hkeeps.takes (hds e he)
    refine ⟨(busWriteFrom_cons_of_takes hd).trans hrun, ?_⟩
    rw [List.foldl_cons, htrace, afterWrite_trace hd, hkeeps.config, List.append_assoc]
    cases h : writeEvent v d.dev (matchPort s.config d p) <;> simp [h]

variable {α : Type} {f : State → α} {r : DeviceRef}

/-- Registers that only the writes of one device change keep their values where that device does not
match. -/
theorem foldl_afterWrite_unmatched
    (hf : ∀ {u w e off}, Written v u e off w → e ≠ r → f w = f u)
    (hnone : ∀ d ∈ ds, d.dev = r → matchPort s.config d p = none) :
    f (ds.foldl (State.afterWrite p v) s) = f s := by
  refine foldl_unchanged (afterWrite_keeps p v) fun u hu d hd => ?_
  refine afterWrite_unchanged (hu.takes (htakes d hd)) fun hmatch hwritten => ?_
  refine hf hwritten fun hr => ?_
  rw [hu.config, hnone d hd hr] at hmatch
  cases hmatch

/-- Where it matches, they are as that device's write leaves them. -/
theorem foldl_afterWrite_matched (hdistinct : ds.Pairwise fun d e => d.dev ≠ e.dev)
    (hf : ∀ {u w e off}, Written v u e off w → e ≠ d.dev → f w = f u) (hd : d ∈ ds)
    (hmatch : matchPort s.config d p = some off) :
    ∃ u w, Written v u d.dev off w ∧ f (ds.foldl (State.afterWrite p v) s) = f w := by
  obtain ⟨u, hu, -, hturn⟩ := foldl_eq_turn (s := s) (f := f) (afterWrite_keeps p v) hd hdistinct
    fun u hu e he hne => afterWrite_unchanged (hu.takes (htakes e he)) fun _ h => hf h hne
  exact ⟨u, _, (afterWrite_of_takes (hu.takes (htakes d hd)) (hu.config ▸ hmatch)).2, hturn⟩

theorem foldl_afterWrite_unwritten :
    (ds.foldl (State.afterWrite p v) s).unwritten = s.unwritten :=
  foldl_unchanged (afterWrite_keeps p v) fun _ hu d hd =>
    afterWrite_unchanged (hu.takes (htakes d hd)) fun _ => Written.unwritten

end Takes

/-- Settles O22: no matching device refuses, the fan-out is the fold of the devices' writes, and
what one device's write alone changes stands at the end as that write leaves it. -/
theorem busWriteFansOut : Obligations.BusWriteFansOut := by
  intro s p v hinv hs hide
  have htakes : ∀ d ∈ s.config.devices, s.Takes p d := fun d hd => ⟨hinv.has hd, hide d hd⟩
  have hdistinct := hinv.admitted.distinct
  have honly {d e : Installed} : d ∈ s.config.devices → e ∈ s.config.devices → d.dev = e.dev →
    d = e := fun hd he => List.inj_on_of_nodup_map (List.pairwise_map.2 hdistinct) hd he
  obtain ⟨hrun, htrace⟩ := busWriteFrom_eq_foldl (v := v) htakes
  have hframe := State.eq_of_unwritten_eq (foldl_afterWrite_unwritten (v := v) htakes)
  have hstop : (s.config.devices.foldl (State.afterWrite p v) s).stop = .running := by
    rw [hframe]
    exact hs.1
  refine ⟨_, (exec_busWrite p v s).trans (State.performWrite_ok hs hrun hstop), rfl,
    congrArg (State.returning · .nothing) hframe, ?_, ?_, ?_, ?_, ?_, ?_, ?_⟩
  · exact htrace
  · rintro ⟨d, hd, hdev, hmatch⟩
    obtain ⟨u, w, hwritten, hw⟩ := foldl_afterWrite_matched (v := v) htakes hdistinct
      (f := fun u => u.bank.bank) (hdev ▸ Written.bank_of_ne) hd hmatch
    exact hw.trans (hdev ▸ hwritten).bank_eq
  · exact foldl_afterWrite_unmatched htakes (f := fun u => u.bank.bank) Written.bank_of_ne
  · intro d hd n hdev hmatch
    obtain ⟨u, w, hwritten, hw⟩ := foldl_afterWrite_matched (v := v) htakes hdistinct
      (f := fun u => u.acias[n]?) (hdev ▸ Written.acia_of_ne) hd hmatch
    obtain ⟨a, ha, hcontrol⟩ := (hdev ▸ hwritten).acia_control
    exact ⟨a, hw.trans ha, hcontrol⟩
  · intro d hd n hdev hmatch
    exact foldl_afterWrite_unmatched htakes (f := fun u => u.acias[n]?) Written.acia_of_ne
      fun e he hev => honly hd he (hdev.trans hev.symm) ▸ hmatch
  · intro d hd n hdev hmatch
    obtain ⟨u, w, hwritten, hw⟩ := foldl_afterWrite_matched (v := v) htakes hdistinct
      (f := fun u => u.ides[n]?) (hdev ▸ Written.ide_of_ne) hd hmatch
    obtain ⟨e, he, hdrvhead⟩ := (hdev ▸ hwritten).ide_drvhead
    exact ⟨e, hw.trans he, hdrvhead⟩
  · intro d hd n hdev hmatch
    exact foldl_afterWrite_unmatched htakes (f := fun u => u.ides[n]?) Written.ide_of_ne
      fun e he hev => honly hd he (hdev.trans hev.symm) ▸ hmatch

end FanOut

end Sys2Proof.Machine
end

section
/-! The CPU window (spec/41_banked_memory.md): what one access does with the hook's answer to it,
and the statements on single accesses. An unhooked access is one that is declined. -/

namespace Sys2Proof.Machine

/-! ### The hook's answers, taken one at a time (rule R134) -/

section Answers

variable {s : State}

theorem State.readAnswers_nil {l : List (Option Byte)} :
    s.ReadAnswers [] l ↔ s.hookReads = l := by
  simp [State.ReadAnswers]

theorem State.writeAnswers_nil {l : List Bool} : s.WriteAnswers [] l ↔ s.hookWrites = l := by
  simp [State.WriteAnswers]

theorem State.readAnswers_of_hook {hs l : List (Option Byte)} (h : s.config.memHook = true) :
    s.ReadAnswers hs l ↔ s.hookReads = hs ++ l := by
  rw [State.ReadAnswers, if_pos h]

theorem State.writeAnswers_of_hook {ws l : List Bool} (h : s.config.memHook = true) :
    s.WriteAnswers ws l ↔ s.hookWrites = ws ++ l := by
  rw [State.WriteAnswers, if_pos h]

theorem State.readAnswers_of_noHook {hs l : List (Option Byte)} (h : s.config.memHook = false) :
    s.ReadAnswers hs l ↔ (∀ x ∈ hs, x = none) ∧ s.hookReads = l := by
  rw [State.ReadAnswers, if_neg (Bool.not_eq_true _ ▸ h)]

theorem State.writeAnswers_of_noHook {ws l : List Bool} (h : s.config.memHook = false) :
    s.WriteAnswers ws l ↔ (∀ w ∈ ws, w = false) ∧ s.hookWrites = l := by
  rw [State.WriteAnswers, if_neg (Bool.not_eq_true _ ▸ h)]

theorem State.readDeclined_of_noHook (h : s.config.memHook = false) :
    s.ReadAnswers [none] s.hookReads :=
  (State.readAnswers_of_noHook h).2 ⟨fun _ => List.eq_of_mem_singleton, rfl⟩

theorem State.writeDeclined_of_noHook (h : s.config.memHook = false) :
    s.WriteAnswers [false] s.hookWrites :=
  (State.writeAnswers_of_noHook h).2 ⟨fun _ => List.eq_of_mem_singleton, rfl⟩

/-- `s` after CPU-window reads that leave the hook's answers `q`. -/
def State.reading (s : State) (q : List (Option Byte)) : State := { s with hookReads := q }

/-- `s` after CPU-window writes that leave the hook's answers `q` and the memory `m`. -/
def State.storing (s : State) (q : List Bool) (m : Memory) : State :=
  { s with hookWrites := q, bank := { s.bank with phys := m } }

/-- An access takes the first answer. -/
theorem hookRead_of_answers {h : Option Byte} {hs l : List (Option Byte)}
    (hans : s.ReadAnswers (h :: hs) l) :
    ∃ q, hookRead s = (h, s.reading q) ∧ (s.reading q).ReadAnswers hs l := by
  cases hhook : s.config.memHook with
  | true =>
    have hreads := (State.readAnswers_of_hook hhook).1 hans
    exact ⟨hs ++ l, by simp [hookRead, hhook, hreads, State.reading],
      (State.readAnswers_of_hook (s := s.reading (hs ++ l)) hhook).2 rfl⟩
  | false =>
    obtain ⟨hnone, hl⟩ := (State.readAnswers_of_noHook hhook).1 hans
    obtain ⟨rfl, hrest⟩ := List.forall_mem_cons.1 hnone
    exact ⟨_, hookRead_absent hhook, (State.readAnswers_of_noHook hhook).2 ⟨hrest, hl⟩⟩

theorem hookWrite_of_answers {w : Bool} {ws l : List Bool} (hans : s.WriteAnswers (w :: ws) l) :
    ∃ q, hookWrite s = (w, s.storing q s.bank.phys) ∧
      ∀ m, (s.storing q m).WriteAnswers ws l := by
  cases hhook : s.config.memHook with
  | true =>
    have hwrites := (State.writeAnswers_of_hook hhook).1 hans
    exact ⟨ws ++ l, by simp [hookWrite, hhook, hwrites, State.storing], fun m =>
      (State.writeAnswers_of_hook (s := s.storing (ws ++ l) m) hhook).2 rfl⟩
  | false =>
    obtain ⟨hfalse, hl⟩ := (State.writeAnswers_of_noHook hhook).1 hans
    obtain ⟨rfl, hrest⟩ := List.forall_mem_cons.1 hfalse
    exact ⟨_, hookWrite_absent hhook, fun m =>
      (State.writeAnswers_of_noHook (s := s.storing s.hookWrites m) hhook).2 ⟨hrest, hl⟩⟩

/-! ### One access (rules R131 to R134) -/

/-- A read returns the hook's answer; a declined one goes through the mapping. -/
theorem cpuRead_of_answers {h : Option Byte} {hs l : List (Option Byte)} (a : U16)
    (hans : s.ReadAnswers (h :: hs) l) :
    ∃ q, (s.reading q).ReadAnswers hs l ∧
      (h = none → s.config.size ≤ physOff s.config s.bank.bank a →
        cpuRead s a = (s.reading q, .error (.bankOutOfRange a s.bank.bank))) ∧
      ((h = none → physOff s.config s.bank.bank a < s.config.size) →
        cpuRead s a =
          (s.reading q, .ok (h.getD (s.physRead (physOff s.config s.bank.bank a))))) := by
  obtain ⟨q, hhook, hrest⟩ := hookRead_of_answers hans
  refine ⟨q, hrest, ?_, fun hlt => ?_⟩
  · rintro rfl hle
    rw [cpuRead, hhook]
    exact if_neg hle.not_gt
  · rw [cpuRead, hhook]
    cases h with
    | none => exact if_pos (hlt rfl)
    | some b => rfl

/-- A write that the hook accepts stores nothing; a declined one goes through the mapping. -/
theorem cpuWrite_of_answers {w : Bool} {ws l : List Bool} (a : U16) (v : Byte)
    (hans : s.WriteAnswers (w :: ws) l) :
    ∃ q, (∀ m, (s.storing q m).WriteAnswers ws l) ∧
      (w = false → s.config.size ≤ physOff s.config s.bank.bank a →
        cpuWrite s a v = (s.storing q s.bank.phys, some (.bankOutOfRange a s.bank.bank))) ∧
      ((w = false → physOff s.config s.bank.bank a < s.config.size) →
        cpuWrite s a v = (s.storing q (if w = false then
          s.bank.phys.write (physOff s.config s.bank.bank a) v else s.bank.phys), none)) := by
  obtain ⟨q, hhook, hrest⟩ := hookWrite_of_answers hans
  refine ⟨q, hrest, ?_, fun hlt => ?_⟩
  · rintro rfl hle
    rw [cpuWrite, hhook]
    exact if_neg hle.not_gt
  · rw [cpuWrite, hhook]
    cases w with
    | false => exact if_pos (hlt rfl)
    | true => rfl

end Answers

/-! ### The transactions of one byte -/

section OneByte

variable {s : State} {a : U16} {v : Byte}

theorem exec_memRead_of_answers {h : Option Byte} {l : List (Option Byte)} (hs : s.Ready)
    (hans : s.ReadAnswers [h] l)
    (hlt : h = none → physOff s.config s.bank.bank a < s.config.size) :
    exec (.memRead a) s = .next { s with
      hookReads := l, result := .byte (h.getD (s.physRead (physOff s.config s.bank.bank a))) } := by
  obtain ⟨q, hrest, -, hok⟩ := cpuRead_of_answers a hans
  obtain rfl := State.readAnswers_nil.1 hrest
  simp only [exec_memRead, State.emulation_of_ready hs, hok hlt]
  exact State.outcome_of_running hs.1

theorem exec_memRead_pastSize {l : List (Option Byte)} (hs : s.Ready)
    (hans : s.ReadAnswers [none] l) (hle : s.config.size ≤ physOff s.config s.bank.bank a) :
    exec (.memRead a) s = .fault (.bankOutOfRange a s.bank.bank) := by
  obtain ⟨q, -, hfault, -⟩ := cpuRead_of_answers a hans
  simp only [exec_memRead, State.emulation_of_ready hs, hfault rfl hle, State.raise_outcome]

theorem exec_memWrite_accepted {l : List Bool} (hs : s.Ready) (hans : s.WriteAnswers [true] l) :
    exec (.memWrite a v) s = .next { s with hookWrites := l, result := .nothing } := by
  obtain ⟨q, hrest, -, hok⟩ := cpuWrite_of_answers a v hans
  obtain rfl := State.writeAnswers_nil.1 (hrest s.bank.phys)
  simp only [exec_memWrite, State.emulation_of_ready hs, hok nofun]
  exact State.outcome_of_running hs.1

theorem exec_memWrite_declined {l : List Bool} (hs : s.Ready) (hans : s.WriteAnswers [false] l)
    (hlt : physOff s.config s.bank.bank a < s.config.size) :
    exec (.memWrite a v) s = .next { s with
      hookWrites := l
      bank := { s.bank with phys := s.bank.phys.write (physOff s.config s.bank.bank a) v }
      result := .nothing } := by
  obtain ⟨q, hrest, -, hok⟩ := cpuWrite_of_answers a v hans
  obtain rfl := State.writeAnswers_nil.1 (hrest s.bank.phys)
  simp only [exec_memWrite, State.emulation_of_ready hs, hok fun _ => hlt]
  exact State.outcome_of_running hs.1

theorem exec_memWrite_pastSize {l : List Bool} (hs : s.Ready) (hans : s.WriteAnswers [false] l)
    (hle : s.config.size ≤ physOff s.config s.bank.bank a) :
    exec (.memWrite a v) s = .fault (.bankOutOfRange a s.bank.bank) := by
  obtain ⟨q, -, hfault, -⟩ := cpuWrite_of_answers a v hans
  simp only [exec_memWrite, State.emulation_of_ready hs, hfault rfl hle, State.raise_outcome]

theorem exec_bankWrSelect_of_ready (hs : s.Ready) :
    exec (.bankWrSelect v) s = .next ((s.putBankNumber (v >>> 1)).returning .nothing) :=
  (exec_bankWrSelect v s).trans (State.performWrite_ok hs (rule := writeBank v) rfl hs.1)

end OneByte

/-- Settles O23. -/
theorem bankRegisterIsWriteOnly : Obligations.BankRegisterIsWriteOnly := fun s _ hs =>
  ⟨exec_bankWrSelect_of_ready hs, (exec_bankRd s).trans (State.performRead_answered hs rfl hs.1)⟩

/-- Settles O24: without a hook the read is declined, and the mapping spelled out is `physOff`. -/
theorem memReadReturnsMappedByte : Obligations.MemReadReturnsMappedByte := by
  intro s a o hs hhook ho hlt
  subst ho
  exact exec_memRead_of_answers hs (State.readDeclined_of_noHook hhook) fun _ => hlt

/-- Settles O25: without a hook the write is declined, and it is one write to the byte store. -/
theorem memWriteStoresMappedByte : Obligations.MemWriteStoresMappedByte := by
  intro s a v o hs hhook ho hlt
  subst ho
  exact ⟨_, exec_memWrite_declined hs (State.writeDeclined_of_noHook hhook) hlt,
    Memory.physRead_write s.bank.phys _ v⟩

/-- Settles O26. -/
theorem accessPastSizeFaults : Obligations.AccessPastSizeFaults := by
  intro s a v o hs hhook ho hle
  subst ho
  exact ⟨exec_memRead_pastSize hs (State.readDeclined_of_noHook hhook) hle,
    exec_memWrite_pastSize hs (State.writeDeclined_of_noHook hhook) hle,
    _, exec_bankWrSelect_of_ready hs⟩

/-- Settles O27: each clause is one answer at the head of the hook's list. -/
theorem hookBypassesPhysicalMemory : Obligations.HookBypassesPhysicalMemory := by
  intro s a v hs hhook
  have hread {h : Option Byte} {l : List (Option Byte)} (hl : s.hookReads = h :: l) :
      s.ReadAnswers [h] l := (State.readAnswers_of_hook hhook).2 hl
  have hwrite {w : Bool} {l : List Bool} (hl : s.hookWrites = w :: l) : s.WriteAnswers [w] l :=
    (State.writeAnswers_of_hook hhook).2 hl
  refine ⟨fun h l hl => ?_, fun l hl hlt => ?_, fun l hl hle => ?_, fun l hl => ?_,
    fun l hl hlt => ?_, fun l hl hle => ?_⟩
  · exact exec_memRead_of_answers hs (hread hl) nofun
  · exact exec_memRead_of_answers hs (hread hl) fun _ => hlt
  · exact exec_memRead_pastSize hs (hread hl) hle
  · exact exec_memWrite_accepted hs (hwrite hl)
  · exact ⟨_, exec_memWrite_declined hs (hwrite hl) hlt, Memory.physRead_write s.bank.phys _ v⟩
  · exact exec_memWrite_pastSize hs (hwrite hl) hle

end Sys2Proof.Machine
end

section
/-! The banks of the CPU window (spec/41_banked_memory.md rules R130 and R135 to R137): where upper
RAM and each bank's window lie in physical memory. -/

namespace Sys2Proof.Machine

section Mapping

variable {c : Config} {a u : U16} {k : Byte}

theorem physOff_window (h : a.toNat < c.bankSize) :
    physOff c k a = a.toNat + k.toNat * c.bankSize :=
  if_pos h

/-- Rule R135: the bank does not enter into it. -/
theorem physOff_upper (h : c.bankSize ≤ a.toNat) :
    physOff c k a = c.size - 2 * c.bankSize + a.toNat :=
  if_neg h.not_gt

/-- Rule R130. -/
theorem physOff_upper_lt_size (hc : c.Admitted) (h : c.bankSize ≤ a.toNat) :
    physOff c k a < c.size := by
  obtain ⟨hmin, -, hsize⟩ := c.meets_bankSizes.1 (c.admitted_iff_meets.1 hc .bankSizes)
  rw [physOff_upper h]
  omega

theorem toNat_bankNumber (v : Byte) : (v >>> 1).toNat = v.toNat / 2 := by
  rw [BitVec.toNat_ushiftRight, Nat.shiftRight_one]

/-- Rule R136: dividing a physical offset in a bank's window by `BankSize` gives the bank back. -/
theorem bankWindows_disjoint {x y i j n : Nat} (hx : x < n) (hy : y < n) (hij : i ≠ j) :
    x + i * n ≠ y + j * n := by
  have bankOf {x i : Nat} (hx : x < n) : (x + i * n) / n = i := by
    rw [Nat.add_mul_div_right _ _ (Nat.zero_lt_of_lt hx), Nat.div_eq_of_lt hx, Nat.zero_add]
  intro h
  exact hij ((bankOf hx).symm.trans ((congrArg (· / n) h).trans (bankOf hy)))

end Mapping

/-- Settles O28: the offset of an upper address lies inside `Size` and does not name the bank. -/
theorem upperRamIgnoresBank : Obligations.UpperRamIgnoresBank := by
  intro s a v hinv hs hhook hupper
  have hread {t : State} (ht : t.Ready) (hconfig : t.config = s.config) :
      exec (.memRead a) t = .next { t with
        result := .byte (t.physRead (s.config.size - 2 * s.config.bankSize + a.toNat)) } := by
    have htUpper : t.config.bankSize ≤ a.toNat := hconfig ▸ hupper
    have := exec_memRead_of_answers (a := a) ht
      (State.readDeclined_of_noHook (hconfig ▸ hhook))
      fun _ => physOff_upper_lt_size (hconfig ▸ hinv.admitted) htUpper
    rw [physOff_upper htUpper] at this
    rwa [← hconfig]
  exact ⟨_, _, hread hs rfl, exec_bankWrSelect_of_ready hs,
    hread (t := (s.putBankNumber (v >>> 1)).returning .nothing) hs rfl⟩

/-- Settles O29: the byte written and the byte read lie in the windows of two banks. -/
theorem banksAreIsolated : Obligations.BanksAreIsolated := by
  intro s a b u v w j k _ hs hhook ha hb hj hk hjk hwrite hfits
  have hread : a.toNat + k * s.config.bankSize < s.config.size := by
    rw [Nat.succ_mul] at hfits
    omega
  have hwindow {x : U16} (y : Byte) (hx : x.toNat < s.config.bankSize) :
      physOff s.config (y >>> 1) x = x.toNat + y.toNat / 2 * s.config.bankSize := by
    rw [physOff_window hx, toNat_bankNumber]
  subst hj hk
  obtain ⟨m, hwrote, hm⟩ := memWriteStoresMappedByte
    ((s.putBankNumber (u >>> 1)).returning .nothing) b v _ hs hhook (hwindow u hb).symm hwrite
  have hselect := exec_bankWrSelect_of_ready (v := w)
    (s := { s with bank := ⟨u >>> 1, m⟩, result := .nothing }) hs
  have hreads := memReadReturnsMappedByte { s with bank := ⟨w >>> 1, m⟩, result := .nothing } a _
    hs hhook (hwindow w ha).symm hread
  refine ⟨_, (execAll_cons_of_next (exec_bankWrSelect_of_ready hs)).trans
    ((execAll_cons_of_next hwrote).trans ((execAll_cons_of_next hselect).trans
      (execAll_cons_of_next hreads))), ?_⟩
  exact congrArg Result.byte ((hm _).trans (if_neg (bankWindows_disjoint ha hb hjk.symm)))

/-- Settles O30: the window of bank `k` and upper RAM are two intervals of physical memory, and the
later of their first bytes lies in both if any byte does. -/
theorem bankAliasesUpperRamIff : Obligations.BankAliasesUpperRamIff := by
  intro c k hc hregion
  obtain ⟨hmin, -, hsize⟩ := c.meets_bankSizes.1 (c.admitted_iff_meets.1 hc .bankSizes)
  constructor
  · rintro ⟨a, u, ha, hu, hsame⟩
    rw [physOff_window ha, physOff_upper hu] at hsame
    omega
  · rintro ⟨hlow, hhigh⟩
    obtain ⟨o, ho⟩ : ∃ o, o = max (k.toNat * c.bankSize) (c.size - c.bankSize) := ⟨_, rfl⟩
    obtain ⟨a, ha⟩ : ∃ a : U16, a.toNat = o - k.toNat * c.bankSize :=
      ⟨BitVec.ofNat 16 _, Nat.mod_eq_of_lt (by omega)⟩
    obtain ⟨u, hu⟩ : ∃ u : U16, u.toNat = o - (c.size - 2 * c.bankSize) :=
      ⟨BitVec.ofNat 16 _, Nat.mod_eq_of_lt (by omega)⟩
    have hwindow : a.toNat < c.bankSize := by omega
    have hupper : c.bankSize ≤ u.toNat := by omega
    refine ⟨a, u, hwindow, hupper, ?_⟩
    rw [physOff_window hwindow, physOff_upper hupper]
    omega

end Sys2Proof.Machine
end

section
/-! The bulk operations (spec/41_banked_memory.md rules R141 to R143): the argument check, the byte
steps of a run of answered accesses, and the statements on whole transactions. -/

namespace Sys2Proof.Machine

/-! ### The argument check (rule R141) -/

/-- Settles O31: the disjunction is the check's own. -/
theorem bulkArgumentsAreChecked : Obligations.BulkArgumentsAreChecked := by
  intro s start buffer index len hs hfails
  have hcheck : bulkCheckFails start buffer index len = true := decide_eq_true hfails
  rw [exec_memSetContents, exec_memGetContents, State.emulation_of_ready hs,
    State.emulation_of_ready hs, setContents, getContents, if_pos hcheck, if_pos hcheck]
  exact ⟨State.outcome_of_running hs.1, State.outcome_of_running hs.1⟩

section Checked

variable {s t : State} {start index len : Nat} {buffer : List Byte}

theorem bulkCheckFails_of_fits (hspan : start + len ≤ 0x10000)
    (hbuffer : index + len ≤ buffer.length) :
    bulkCheckFails start buffer index len = false := by
  simp only [bulkCheckFails, decide_eq_false_iff_not]
  omega

theorem length_slice (hbuffer : index + len ≤ buffer.length) :
    ((buffer.drop index).take len).length = len := by
  rw [List.length_take, List.length_drop]
  omega

theorem setContents_of_stored (hspan : start + len ≤ 0x10000)
    (hbuffer : index + len ≤ buffer.length)
    (h : storeBytes s start ((buffer.drop index).take len) = (t, none)) :
    setContents start buffer index len s = t.returning .ok := by
  simp [setContents, bulkCheckFails_of_fits hspan hbuffer, bulkSlice, h]

theorem setContents_of_fault {f : Fault} (hspan : start + len ≤ 0x10000)
    (hbuffer : index + len ≤ buffer.length)
    (h : storeBytes s start ((buffer.drop index).take len) = (t, some f)) :
    setContents start buffer index len s = t.raise f := by
  simp [setContents, bulkCheckFails_of_fits hspan hbuffer, bulkSlice, h]

theorem getContents_of_fetched {bs : List Byte} (hspan : start + len ≤ 0x10000)
    (hbuffer : index + len ≤ buffer.length) (h : fetchBytes s start len = (t, bs, none)) :
    getContents start buffer index len s =
      t.returning (.contents (buffer.take index ++ bs ++ buffer.drop (index + bs.length))) := by
  simp [getContents, bulkCheckFails_of_fits hspan hbuffer, bulkFill, h]

theorem getContents_of_fault {bs : List Byte} {f : Fault} (hspan : start + len ≤ 0x10000)
    (hbuffer : index + len ≤ buffer.length) (h : fetchBytes s start len = (t, bs, some f)) :
    getContents start buffer index len s =
      (t.returning (.contents
        (buffer.take index ++ bs ++ buffer.drop (index + bs.length)))).raise f := by
  simp [getContents, bulkCheckFails_of_fits hspan hbuffer, bulkFill, h]

end Checked

/-! ### The byte steps of a bulk write -/

/-- `m'` is what memory `m` becomes when byte `i` of `bs` is stored at offset `off i`, one after
another, for each `i` at which the answer in `ws` is declined. -/
structure Stored (off : Nat → Nat) (ws : List Bool) (bs : List Byte) (m m' : Memory) : Prop where
  latest : ∀ i < bs.length, ws[i]? = some false →
    (∀ j < bs.length, i < j → ws[j]? = some false → off j ≠ off i) →
    some (m'.physRead (off i)) = bs[i]?
  frame : ∀ x, (∀ i < bs.length, ws[i]? = some false → off i ≠ x) → m'.physRead x = m.physRead x

section Stored

variable {off : Nat → Nat} {ws : List Bool} {bs : List Byte} {m m' : Memory}

theorem Stored.nil : Stored off ws [] m m where
  latest _ hi := absurd hi (Nat.not_lt_zero _)
  frame _ _ := rfl

theorem Stored.snoc {w : Bool} (h : Stored off ws bs m m') (b : Byte)
    (hw : ws[bs.length]? = some w) :
    Stored off ws (bs ++ [b]) m (if w = false then m'.write (off bs.length) b else m') := by
  have hread (x : Nat) : (if w = false then m'.write (off bs.length) b else m').physRead x =
      if w = false ∧ x = off bs.length then b else m'.physRead x := by
    cases w <;> simp [Memory.physRead_write]
  constructor
  · intro i hi hwi hlast
    rw [List.length_append, List.length_singleton] at hi hlast
    rw [hread]
    obtain hlt | rfl := Nat.lt_succ_iff_lt_or_eq.1 hi
    · rw [List.getElem?_append_left hlt, if_neg fun ⟨hdeclined, hoff⟩ =>
        hlast _ (Nat.lt_succ_self _) hlt (hdeclined ▸ hw) hoff.symm]
      exact h.latest i hlt hwi fun j hj => hlast j (Nat.lt_succ_of_lt hj)
    · rw [if_pos ⟨Option.some.inj (hw.symm.trans hwi), rfl⟩, List.getElem?_concat_length]
  · intro x hx
    rw [List.length_append, List.length_singleton] at hx
    rw [hread, if_neg fun ⟨hdeclined, hoff⟩ =>
      hx _ (Nat.lt_succ_self _) (hdeclined ▸ hw) hoff.symm]
    exact h.frame x fun i hi => hx i (Nat.lt_succ_of_lt hi)

end Stored

/-- The physical offset of byte `i` of a span of the CPU window. -/
def State.spanOff (s : State) (start i : Nat) : Nat :=
  physOff s.config s.bank.bank (BitVec.ofNat 16 (start + i))

/-- Bytes whose declined writes lie inside `Size` are all stored, whatever follows them. -/
theorem storeBytes_of_answers {s : State} {start : Nat} {ws l : List Bool} (bs : List Byte)
    (hans : s.WriteAnswers ws l) (hlen : bs.length ≤ ws.length)
    (hinside : ∀ i < bs.length, ws[i]? = some false → s.spanOff start i < s.config.size) :
    ∃ q m, (s.storing q m).WriteAnswers (ws.drop bs.length) l ∧
      Stored (s.spanOff start) ws bs s.bank.phys m ∧
      ∀ rest, storeBytes s start (bs ++ rest) =
        storeBytes (s.storing q m) (start + bs.length) rest := by
  induction bs using List.reverseRecOn with
  | nil => exact ⟨s.hookWrites, s.bank.phys, hans, .nil, fun rest => rfl⟩
  | append_singleton bs b ih =>
    rw [List.length_append, List.length_singleton] at hlen hinside ⊢
    obtain ⟨q, m, hdrop, hstored, hsteps⟩ := ih (Nat.le_of_succ_le hlen)
      fun i hi => hinside i (Nat.lt_succ_of_lt hi)
    have hw := List.getElem?_eq_getElem hlen
    rw [List.drop_eq_getElem_cons hlen] at hdrop
    obtain ⟨q', hdrop', -, hwrite⟩ :=
      cpuWrite_of_answers (BitVec.ofNat 16 (start + bs.length)) b hdrop
    have hcpu := hwrite fun hdeclined =>
      hinside _ (Nat.lt_succ_self _) (hw.trans (congrArg some hdeclined))
    refine ⟨q', _, hdrop' _, hstored.snoc b hw, fun rest => ?_⟩
    rw [List.append_assoc, hsteps, List.singleton_append, storeBytes, hcpu]
    rfl

/-- The first declined byte past `Size` stops a bulk write, with the memory that a bulk write of the
bytes before it leaves. -/
theorem storeBytes_stops {s : State} {start n : Nat} {ws l : List Bool} {bs : List Byte}
    (hans : s.WriteAnswers ws l) (hn : n < bs.length)
    (hinside : ∀ i < n, ws[i]? = some false → s.spanOff start i < s.config.size)
    (hw : ws[n]? = some false) (hle : s.config.size ≤ s.spanOff start n) :
    ∃ q q' m, storeBytes s start (bs.take n) = (s.storing q m, none) ∧
      storeBytes s start bs =
        (s.storing q' m, some (.bankOutOfRange (BitVec.ofNat 16 (start + n)) s.bank.bank)) := by
  obtain ⟨hlt, hdeclined⟩ := List.getElem?_eq_some_iff.1 hw
  have htake : (bs.take n).length = n := List.length_take_of_le hn.le
  obtain ⟨q, m, hdrop, -, hsteps⟩ := storeBytes_of_answers (bs.take n) hans
    (htake.trans_le hlt.le) (by rwa [htake])
  rw [htake] at hdrop hsteps
  rw [List.drop_eq_getElem_cons hlt, hdeclined] at hdrop
  obtain ⟨q', -, hfault, -⟩ := cpuWrite_of_answers (BitVec.ofNat 16 (start + n)) bs[n] hdrop
  have hfirst := hsteps []
  have hall := hsteps (bs[n] :: bs.drop (n + 1))
  rw [List.append_nil] at hfirst
  rw [← List.drop_eq_getElem_cons hn, List.take_append_drop, List.drop_eq_getElem_cons hn,
    storeBytes, hfault rfl hle] at hall
  exact ⟨q, q', m, hfirst, hall⟩

/-- Settles O32: the whole slice is stored, and no answer of `ws` is left. -/
theorem setContentsWritesEveryByte : Obligations.SetContentsWritesEveryByte := by
  intro s start index len buffer ws l hs hans hws hspan hbuffer hinside
  obtain ⟨bs, hbs⟩ : ∃ bs, bs = (buffer.drop index).take len := ⟨_, rfl⟩
  obtain rfl : bs.length = len := hbs ▸ length_slice hbuffer
  obtain ⟨q, m, hdrop, hstored, hsteps⟩ := storeBytes_of_answers bs hans hws.ge hinside
  rw [← hws, List.drop_length] at hdrop
  obtain rfl := State.writeAnswers_nil.1 hdrop
  have hall := hsteps []
  rw [List.append_nil, hbs] at hall
  refine ⟨m, ?_, fun i hi hw hlast => ?_, hstored.frame⟩
  · rw [exec_memSetContents, State.emulation_of_ready hs, setContents_of_stored hspan hbuffer hall]
    exact State.outcome_of_running hs.1
  · rw [← List.getElem?_drop, ← List.getElem?_take_of_lt hi, ← hbs]
    exact hstored.latest i hi hw hlast

/-- Settles O33: the first `n` bytes are stored in both runs, and the write of byte `n` faults. -/
theorem setContentsStopsAtFirstBadByte : Obligations.SetContentsStopsAtFirstBadByte := by
  intro s start index len n buffer ws l hs hans _ hspan hbuffer hn hinside hw hle
  obtain ⟨q, q', m, hfirst, hall⟩ := storeBytes_stops hans
    (hn.trans_eq (length_slice hbuffer).symm) hinside hw hle
  rw [List.take_take, Nat.min_eq_left hn.le] at hfirst
  have hstop := setContents_of_fault hspan hbuffer hall
  refine ⟨?_, (s.storing q m).returning .ok, ?_, fun x => hstop ▸ rfl⟩
  · rw [exec_memSetContents, State.emulation_of_ready hs, hstop, State.raise_outcome]
  · rw [exec_memSetContents, State.emulation_of_ready hs,
      setContents_of_stored (by omega) (by omega) hfirst]
    exact State.outcome_of_running hs.1

/-! ### The byte steps of a bulk read -/

/-- What the first `n` bytes of a bulk read return: the hook's answers, or else the mapped bytes. -/
def State.spanBytes (s : State) (start : Nat) (hs : List (Option Byte)) (n : Nat) : List Byte :=
  (List.range n).map fun i => (hs.getD i none).getD (s.physRead (s.spanOff start i))

theorem State.spanBytes_length (s : State) (start : Nat) (hs : List (Option Byte)) (n : Nat) :
    (s.spanBytes start hs n).length = n := by
  rw [State.spanBytes, List.length_map, List.length_range]

theorem State.spanBytes_succ (s : State) (start : Nat) (hs : List (Option Byte)) (n : Nat) :
    s.spanBytes start hs (n + 1) = s.spanBytes start hs n ++
      [(hs.getD n none).getD (s.physRead (s.spanOff start n))] := by
  rw [State.spanBytes, List.range_succ, List.map_append]
  rfl

theorem fetchBytes_succ_of_read {s t u : State} {a n : Nat} {b : Byte} {bs : List Byte}
    {f : Option Fault} (hread : cpuRead s (BitVec.ofNat 16 a) = (t, .ok b))
    (hrest : fetchBytes t (a + 1) n = (u, bs, f)) : fetchBytes s a (n + 1) = (u, b :: bs, f) := by
  rw [fetchBytes, hread]
  simp only [hrest]

/-- Bytes whose declined reads lie inside `Size` are all read, whatever follows them. -/
theorem fetchBytes_of_answers {s : State} {start : Nat} {hs l : List (Option Byte)} (n : Nat)
    (hans : s.ReadAnswers hs l) (hlen : n ≤ hs.length)
    (hinside : ∀ i < n, hs[i]? = some none → s.spanOff start i < s.config.size) :
    ∃ q, (s.reading q).ReadAnswers (hs.drop n) l ∧
      ∀ {rest t bs f}, fetchBytes (s.reading q) (start + n) rest = (t, bs, f) →
        fetchBytes s start (n + rest) = (t, s.spanBytes start hs n ++ bs, f) := by
  induction n with
  | zero => exact ⟨s.hookReads, hans, fun {rest _ _ _} h => (Nat.zero_add rest).symm ▸ h⟩
  | succ n ih =>
    obtain ⟨q, hdrop, hsteps⟩ := ih (Nat.le_of_succ_le hlen)
      fun i hi => hinside i (Nat.lt_succ_of_lt hi)
    have hh := List.getElem?_eq_getElem hlen
    rw [List.drop_eq_getElem_cons hlen] at hdrop
    obtain ⟨q', hdrop', -, hread⟩ := cpuRead_of_answers (BitVec.ofNat 16 (start + n)) hdrop
    have hcpu := hread fun hdeclined =>
      hinside n (Nat.lt_succ_self n) (hh.trans (congrArg some hdeclined))
    refine ⟨q', hdrop', fun {rest t bs f} h => ?_⟩
    rw [Nat.succ_add_eq_add_succ, State.spanBytes_succ, List.append_assoc,
      List.getD_eq_getElem hs none hlen]
    exact hsteps (fetchBytes_succ_of_read hcpu h)

/-- The first declined byte past `Size` stops a bulk read, with the bytes before it read. -/
theorem fetchBytes_stops {s : State} {start n len : Nat} {hs l : List (Option Byte)}
    (hans : s.ReadAnswers hs l) (hn : n < len)
    (hinside : ∀ i < n, hs[i]? = some none → s.spanOff start i < s.config.size)
    (hh : hs[n]? = some none) (hle : s.config.size ≤ s.spanOff start n) :
    ∃ q, fetchBytes s start len = (s.reading q, s.spanBytes start hs n,
      some (.bankOutOfRange (BitVec.ofNat 16 (start + n)) s.bank.bank)) := by
  obtain ⟨hlt, hdeclined⟩ := List.getElem?_eq_some_iff.1 hh
  obtain ⟨q, hdrop, hsteps⟩ := fetchBytes_of_answers n hans hlt.le hinside
  rw [List.drop_eq_getElem_cons hlt, hdeclined] at hdrop
  obtain ⟨q', -, hfault, -⟩ := cpuRead_of_answers (BitVec.ofNat 16 (start + n)) hdrop
  obtain ⟨k, rfl⟩ := Nat.exists_eq_add_of_lt hn
  have hall := hsteps (rest := k + 1) (by rw [fetchBytes, hfault rfl hle])
  rw [List.append_nil] at hall
  exact ⟨q', hall⟩

/-- Settles O34: the first bytes are all fetched, and then nothing is left or the next read
faults. -/
theorem getContentsReadsEveryByte : Obligations.GetContentsReadsEveryByte := by
  intro s start index len buffer hs l hready hans hspan hbuffer
  refine ⟨fun hlen hinside => ?_, fun n hn _ hinside hh hle => ?_⟩
  · obtain ⟨q, hdrop, hsteps⟩ := fetchBytes_of_answers len hans hlen.ge hinside
    rw [← hlen, List.drop_length] at hdrop
    obtain rfl := State.readAnswers_nil.1 hdrop
    have hall := hsteps (rest := 0) rfl
    rw [List.append_nil] at hall
    rw [exec_memGetContents, State.emulation_of_ready hready,
      getContents_of_fetched hspan hbuffer hall, State.spanBytes_length]
    exact State.outcome_of_running hready.1
  · obtain ⟨q, hall⟩ := fetchBytes_stops hans hn hinside hh hle
    have hstop := getContents_of_fault hspan hbuffer hall
    rw [State.spanBytes_length] at hstop
    refine ⟨?_, congrArg State.result hstop⟩
    rw [exec_memGetContents, State.emulation_of_ready hready, hstop, State.raise_outcome]

end Sys2Proof.Machine
end

section
/-! The ACIA's transactions (spec/42_acia.md), on a board whose ACIA `n` holds the registers `a`: the
whole next state of each, and of each sub-step of rule R165. -/

namespace Sys2Proof.Machine

/-! ### Transactions of one step (rules R154 to R162) -/

section Whole

variable {s : State} {n : Nat} {a : Acia} {v : Byte}

theorem exec_aciaWrCtrl_of_ready (hs : s.Ready) (ha : s.acias[n]? = some a) :
    exec (.aciaWrCtrl n v) s = .next ((s.putAcia n (aciaConfigure v a)).returning .nothing) :=
  (exec_aciaWrCtrl n v s).trans
    (State.performWrite_ok hs (State.withAcia_ok.2 ⟨a, ha, rfl⟩) hs.1)

theorem exec_aciaWrCtrlMr_of_ready (hs : s.Ready) (ha : s.acias[n]? = some a) :
    exec (.aciaWrCtrlMr n v) s =
      .next ((s.putAcia n (aciaMasterReset s.config.aciaMrClearsIrqLine v a)).returning .nothing) :=
  (exec_aciaWrCtrlMr n v s).trans
    (State.performWrite_ok hs (State.withAcia_ok.2 ⟨a, ha, rfl⟩) hs.1)

theorem exec_aciaWrData_of_ready (hs : s.Ready) (ha : s.acias[n]? = some a) :
    exec (.aciaWrData n v) s =
      .next (((s.emit (.txByte n v)).putAcia n (aciaTransmit a)).returning .nothing) :=
  (exec_aciaWrData n v s).trans
    (State.performWrite_ok hs (State.withAcia_ok.2 ⟨a, ha, rfl⟩) hs.1)

theorem exec_irqQuery_of_ready (hs : s.Ready) (ha : s.acias[n]? = some a) :
    exec (.irqQuery n) s = .next (s.returning (.flag a.irqLine)) := by
  rw [exec_irqQuery, State.emulation_of_ready hs, ha]
  exact State.outcome_of_running hs.1

/-- Settles O36: the line is lowered under the parameter, and the interrupt query reads it. -/
theorem masterResetClearsStatus : Obligations.MasterResetClearsStatus := by
  intro s n v a hs ha
  refine ⟨(exec_aciaWrCtrlMr_of_ready hs ha).trans ?_, exec_irqQuery_of_ready hs ha⟩
  have hline : (if s.config.aciaMrClearsIrqLine = true then false else a.irqLine) =
      (a.irqLine && !s.config.aciaMrClearsIrqLine) := by
    cases s.config.aciaMrClearsIrqLine <;> simp
  rw [aciaMasterReset, hline]
  rfl

/-- Settles O37. -/
theorem dataWriteEmitsByte : Obligations.DataWriteEmitsByte := fun _ _ _ _ hs ha =>
  exec_aciaWrData_of_ready hs ha

/-- The key of a control write, from its high half and the value it carries (rule R101). -/
theorem mkKey_aciaControl (v : Byte) : mkKey 1#1 2#3 0#4 v = 0xA000#16 ||| v.setWidth 16 := by
  revert v
  decide

/-- Settles O35: a value without the master-reset pattern makes the transaction well formed, so the
decoder inverts its encoding. -/
theorem controlWriteSetsTransmitEmpty : Obligations.ControlWriteSetsTransmitEmpty := by
  intro s n v a hs ha
  refine ⟨fun hv => ?_, exec_aciaWrCtrl_of_ready hs ha⟩
  rw [← mkKey_aciaControl]
  exact decodeInvertsEncode (.aciaWrCtrl n v) (if_neg hv)

/-- Settles O38: the key is the one the transaction encodes to. -/
theorem statusReadChangesNothing : Obligations.StatusReadChangesNothing := by
  intro s n a hs ha
  refine ⟨decodeInvertsEncode (.aciaRdStatus n) rfl, ?_, fun hinv => ?_⟩
  · rw [exec_aciaRdStatus]
    exact State.performRead_answered hs (by rw [readAciaStatus, ha]) hs.1
  · exact (hinv.acias a (List.mem_of_getElem? ha)).reservedZero

end Whole

/-! ### Data reads and received bytes, whole and in sub-steps -/

section Read

variable {s : State} {n : Nat} {a : Acia}

theorem readAciaData_of_empty (ha : s.acias[n]? = some a) (hq : a.rxq = []) (atomic : Bool) :
    readAciaData atomic n s = .ok (.answered s (some a.hold)) := by
  simp only [readAciaData, ha, hq]

theorem readAciaData_of_atomic (ha : s.acias[n]? = some a) {b : Byte} {q : List Byte}
    (hq : a.rxq = b :: q) :
    readAciaData true n s = .ok (.answered (s.putAcia n (aciaReadHead b q a)) (some b)) := by
  simp only [readAciaData, ha, hq, if_true]

/-- Rule R165, sub-step rd.a. -/
theorem readAciaData_of_split (ha : s.acias[n]? = some a) {b : Byte} {q : List Byte}
    (hq : a.rxq = b :: q) :
    readAciaData false n s = .ok (.split (s.putAcia n (aciaTake b q a)) ⟨n, q.isEmpty, b⟩) := by
  simp only [readAciaData, ha, hq, Bool.false_eq_true, if_false]

/-- Settles O40: an empty queue has no sub-steps to split into. -/
theorem emptyDataReadIsStale : Obligations.EmptyDataReadIsStale := by
  intro s n a hs ha hq
  rw [exec_aciaRdData]
  exact State.performRead_answered hs (readAciaData_of_empty ha hq _) hs.1

theorem exec_aciaRdData_of_atomic (hs : s.Ready) (hatomic : s.config.rxAtomic = true)
    (ha : s.acias[n]? = some a) {b : Byte} {q : List Byte} (hq : a.rxq = b :: q) :
    exec (.aciaRdData n) s =
      .next ((s.putAcia n (aciaReadHead b q a)).returning (.opinion (some b))) := by
  rw [exec_aciaRdData]
  exact State.performRead_answered hs (hatomic ▸ readAciaData_of_atomic ha hq) hs.1

/-- Settles O39: the flags are those of rule R159's three rows. -/
theorem dataReadTakesHead : Obligations.DataReadTakesHead := by
  intro s n a b q hs hatomic ha hq
  rw [← aciaReadHead_eq]
  exact exec_aciaRdData_of_atomic hs hatomic ha hq

theorem exec_aciaRdData_of_split (hs : s.Ready) (hsplit : s.config.rxAtomic = false)
    (ha : s.acias[n]? = some a) {b : Byte} {q : List Byte} (hq : a.rxq = b :: q) :
    exec (.aciaRdData n) s =
      .next ((s.putAcia n (aciaTake b q a)).leaveRest (.settle ⟨n, q.isEmpty, b⟩ none)) := by
  rw [exec_aciaRdData]
  exact State.performRead_split hs (hsplit ▸ readAciaData_of_split ha hq) hs.1

theorem exec_rxData_eq_receive (hrun : s.stop = .running) (hhost : s.hostRest = none) (v : Byte) :
    exec (.rxData n v) s = (receive n v s).outcome := by
  rw [exec_rxData, State.transact_of_running hrun, State.finishReceive_of_none hhost]

/-- Settles O41: the flags are those of rule R161. -/
theorem receivedByteIsQueued : Obligations.ReceivedByteIsQueued := by
  intro s n v a hrun hhost hatomic ha
  rw [exec_rxData_eq_receive hrun hhost, receive, if_pos hatomic,
    State.withAcia_ok.2 ⟨a, ha, rfl⟩, ← aciaReceive_eq]
  exact State.outcome_of_running hrun

/-- Rule R165, sub-step rx.a. -/
theorem exec_rxData_of_split (hrun : s.stop = .running) (hhost : s.hostRest = none)
    (hsplit : s.config.rxAtomic = false) (ha : s.acias[n]? = some a) (v : Byte) :
    exec (.rxData n v) s =
      .next (({ s with hostRest := some n }.putAcia n (aciaEnqueue v a)).returning .nothing) := by
  rw [exec_rxData_eq_receive hrun hhost, receive, if_neg (by simp [hsplit]),
    (State.withAcia_ok (s := { s with hostRest := some n })).2 ⟨a, ha, rfl⟩]
  exact State.outcome_of_running hrun

end Read

end Sys2Proof.Machine
end

section
/-! The sub-steps of rule R165 of spec/42_acia.md: where `RX_ATOMIC` is false, what each leaves
outstanding, what resuming it does, and that an agent's own sub-step comes before its next
transaction. -/

namespace Sys2Proof.Machine

/-! ### One sub-step -/

section SubStep

variable {s : State} {n : Nat} {a : Acia}

theorem State.updateAcia_of_acia (ha : s.acias[n]? = some a) (f : Acia → Acia) :
    s.updateAcia n f = s.putAcia n (f a) := by
  simp only [State.updateAcia, ha]

theorem State.settleRead_of_acia (ha : s.acias[n]? = some a) (empty : Bool) (b : Byte) :
    s.settleRead ⟨n, empty, b⟩ =
      { s with emuRest := none }.putAcia n (aciaSettleRead empty a) :=
  State.updateAcia_of_acia (s := { s with emuRest := none }) ha _

theorem State.finishReceive_of_acia (ha : s.acias[n]? = some a) (hhost : s.hostRest = some n) :
    s.finishReceive = { s with hostRest := none }.putAcia n (aciaSettleReceive a) := by
  simp only [State.finishReceive, hhost]
  exact State.updateAcia_of_acia (s := { s with hostRest := none }) ha _

theorem State.finishReceive_frame (s : State) :
    ∃ as, s.finishReceive = { s with acias := as, hostRest := none } := by
  unfold State.finishReceive
  split
  · rename_i hnone
    exact ⟨s.acias, by rw [← hnone]⟩
  · exact State.updateAcia_frame { s with hostRest := none } _ aciaSettleReceive

theorem State.finishReceive_hostRest (s : State) : s.finishReceive.hostRest = none := by
  obtain ⟨as, hframe⟩ := s.finishReceive_frame
  rw [hframe]

theorem BusRest.matchesMore_eq_false {c : Config} {b : BusRest} :
    b.matchesMore c = false ↔ ∀ e ∈ b.devices, matchPort c e b.port = none := by
  simp [BusRest.matchesMore]

/-- No device is left to read after an rd.b. -/
def EndsRead (c : Config) (bus : Option BusRest) : Prop :=
  ∀ r, bus = some r → ∀ e ∈ r.devices, matchPort c e r.port = none

/-- What a read returns whose last sub-step is the rd.b of a taken byte `b`. -/
def settledResult (b : Byte) : Option BusRest → Result
  | none => .opinion (some b)
  | some r => .byte (r.acc &&& b)

/-- An rd.b with no device left to read ends its transaction, whether or not that runs in steps. -/
theorem resumeRead_settle_last {bus : Option BusRest} (hlast : EndsRead s.config bus)
    (atomic : Bool) (k : Taken) :
    resumeRead atomic (.settle k bus) s =
      (s.settleRead k).returning (settledResult k.value bus) := by
  cases bus with
  | none => rfl
  | some r =>
    have hnone := hlast r rfl
    simp only [resumeRead, BusRest.matchesMore_eq_false.2 hnone, Bool.and_false,
      Bool.false_eq_true, if_false]
    exact busReadFrom_unmatched ((s.settleRead_keeps k).config ▸ hnone)

/-- With a device left to read, an rd.b that runs in steps leaves the rest of the port read. -/
theorem resumeRead_settle_more {b : BusRest} (hmore : b.matchesMore s.config = true) (k : Taken) :
    resumeRead false (.settle k (some b)) s =
      (s.settleRead k).leaveRest (.port { b with acc := b.acc &&& k.value }) := by
  simp only [resumeRead, hmore, Bool.not_false, Bool.and_self, if_true]

/-- A port read that runs in steps stops after the sub-step rd.a of a queue `b :: q`. -/
theorem busReadFrom_of_queue {p base : U16} {ds : List Installed} {acc b : Byte} {q : List Byte}
    (ha : s.acias[n]? = some a) (hq : a.rxq = b :: q)
    (hmatch : matchPort s.config ⟨base, .acia n⟩ p = some 1) :
    busReadFrom false p (⟨base, .acia n⟩ :: ds) acc s =
      (s.putAcia n (aciaTake b q a)).leaveRest
        (.settle ⟨n, q.isEmpty, b⟩ (some ⟨p, ds, acc⟩)) := by
  simp only [busReadFrom, hmatch, deviceRead, aciaReadAt, readAciaData_of_split ha hq]

end SubStep

/-! ### Resuming an agent -/

section Resume

variable {s : State} {n : Nat} {a : Acia} {rest : List Presented}

theorem step_of_resume {g : Agent} (hrun : s.stop = .running)
    (hpending : s.pending = .resume g :: rest) :
    step s = (resumeAgent g { s with pending := rest }).outcome := by
  simp only [step, State.takeInput, hrun, hpending]

theorem step_of_resume_producer (hrun : s.stop = .running)
    (hpending : s.pending = .resume .producer :: rest) (ha : s.acias[n]? = some a)
    (hhost : s.hostRest = some n) :
    step s = .next
      ({ s with pending := rest, hostRest := none }.putAcia n (aciaSettleReceive a)) := by
  rw [step_of_resume hrun hpending]
  exact (congrArg State.outcome
    (State.finishReceive_of_acia (s := { s with pending := rest }) ha hhost)).trans
    (State.outcome_of_running hrun)

theorem step_of_resume_emulation {r : ReadRest} (hrun : s.stop = .running)
    (hpending : s.pending = .resume .emulation :: rest) (hrest : s.emuRest = some r) :
    step s = .next (resumeRead s.config.rxAtomic r { s with pending := rest }) := by
  rw [step_of_resume hrun hpending]
  simp only [resumeAgent, hrest]
  obtain ⟨as, is, x, e, hframe⟩ := resumeRead_frame s.config.rxAtomic r { s with pending := rest }
  exact State.outcome_of_running (hframe ▸ hrun)

/-- Resuming the emulation thread at an rd.b that ends its read. -/
theorem step_of_resume_last {empty : Bool} {b : Byte} {bus : Option BusRest}
    (hrun : s.stop = .running) (hpending : s.pending = .resume .emulation :: rest)
    (ha : s.acias[n]? = some a) (hrest : s.emuRest = some (.settle ⟨n, empty, b⟩ bus))
    (hlast : EndsRead s.config bus) :
    step s = .next (({ s with pending := rest, emuRest := none }.putAcia n
      (aciaSettleRead empty a)).returning (settledResult b bus)) := by
  rw [step_of_resume_emulation hrun hpending hrest,
    resumeRead_settle_last (s := { s with pending := rest }) hlast,
    State.settleRead_of_acia (s := { s with pending := rest }) ha]

end Resume

/-! ### A port read that reaches one ACIA's data register -/

section Port

variable {s : State} {n : Nat} {a : Acia} {p base : U16} {xs ys : List Installed}
  (hs : s.Ready) (hsplit : s.config.rxAtomic = false) (ha : s.acias[n]? = some a)
  (hdevices : s.config.devices = xs ++ ⟨base, .acia n⟩ :: ys)
  (hothers : ∀ e ∈ xs ++ ys, matchPort s.config e p = none)
  (hmatch : matchPort s.config ⟨base, .acia n⟩ p = some 1)

include hs hsplit hdevices hothers hmatch in
/-- The port read runs in steps from that ACIA on. -/
theorem exec_busRead_of_dataRegister :
    exec (.busRead p) s = .next (busReadFrom false p (⟨base, .acia n⟩ :: ys) 0xFF#8 s) := by
  have hsplits : splitsRead s.config p = true := by
    simp [splitsRead, hsplit, hdevices, kindOf, hmatch]
  rw [exec_busRead_of_ready hs, hsplits, hdevices,
    busReadFrom_append (List.forall_mem_append.1 hothers).1, Bool.not_true]

include hs hsplit ha hdevices hothers hmatch

theorem exec_busRead_of_emptyQueue (hq : a.rxq = []) :
    exec (.busRead p) s = .next (s.returning (.byte a.hold)) := by
  have hread : deviceRead false (.acia n) 1 s = .ok (.answered s (some a.hold)) :=
    readAciaData_of_empty ha hq false
  rw [exec_busRead_of_dataRegister hs hsplit hdevices hothers hmatch,
    busReadFrom_last hmatch hread (List.forall_mem_append.1 hothers).2, Option.getD_some,
    show 0xFF#8 &&& a.hold = a.hold from BitVec.allOnes_and]

theorem exec_busRead_of_queue {b : Byte} {q : List Byte} (hq : a.rxq = b :: q) :
    exec (.busRead p) s = .next ((s.putAcia n (aciaTake b q a)).leaveRest
      (.settle ⟨n, q.isEmpty, b⟩ (some ⟨p, ys, 0xFF#8⟩))) := by
  rw [exec_busRead_of_dataRegister hs hsplit hdevices hothers hmatch,
    busReadFrom_of_queue ha hq hmatch]

end Port

/-- Settles O44: each clause is one sub-step, from the state the sub-step before it leaves. -/
theorem splitTransactionsRunInTwoSteps : Obligations.SplitTransactionsRunInTwoSteps := by
  intro s n v a hs hhost hsplit ha
  obtain ⟨hrun, hemu⟩ := hs
  refine ⟨exec_rxData_of_split hrun hhost hsplit ha v,
    fun b q hq => exec_aciaRdData_of_split ⟨hrun, hemu⟩ hsplit ha hq, fun rest hpending => ?_,
    fun rest b empty hpending => ?_, fun p base xs ys hdevices hothers hmatch =>
    ⟨exec_busRead_of_emptyQueue ⟨hrun, hemu⟩ hsplit ha hdevices hothers hmatch,
      fun b q hq => exec_busRead_of_queue ⟨hrun, hemu⟩ hsplit ha hdevices hothers hmatch hq⟩,
    fun rest p ds acc b empty hpending => ?_,
    fun rest p base ds acc b q hpending hq hmatch => ?_⟩
  · rw [step_of_resume_producer (s := { s with hostRest := some n }) hrun hpending ha rfl,
      ← aciaSettleReceive_eq, hhost]
    rfl
  · rw [step_of_resume_last (s := { s with emuRest := some (.settle ⟨n, empty, b⟩ none) }) hrun
      hpending ha rfl nofun, ← aciaSettleRead_eq, hemu]
    rfl
  · rw [← aciaSettleRead_eq]
    by_cases hlast : ∀ e ∈ ds, matchPort s.config e p = none
    · rw [if_pos hlast, if_pos hlast, step_of_resume_last (s := { s with
        emuRest := some (.settle ⟨n, empty, b⟩ (some ⟨p, ds, acc⟩)) }) hrun hpending ha rfl
        (by rintro _ ⟨⟩; exact hlast)]
      rfl
    · have hmore : BusRest.matchesMore s.config ⟨p, ds, acc⟩ = true :=
        Bool.of_not_eq_false (mt BusRest.matchesMore_eq_false.1 hlast)
      rw [if_neg hlast, if_neg hlast, step_of_resume_emulation (s := { s with
        emuRest := some (.settle ⟨n, empty, b⟩ (some ⟨p, ds, acc⟩)) }) hrun hpending rfl, hsplit,
        resumeRead_settle_more (by exact hmore), State.settleRead_of_acia (by exact ha)]
      rfl
  · rw [step_of_resume_emulation (s := { s with
      emuRest := some (.port ⟨p, ⟨base, .acia n⟩ :: ds, acc⟩) }) hrun hpending rfl, hsplit]
    exact congrArg Host.Outcome.next
      (busReadFrom_of_queue (s := { s with pending := rest, emuRest := none }) ha hq hmatch)

/-! ### An agent's own sub-step first -/

section OwnFirst

variable {s : State}

theorem resumeRead_atomic_emuRest (r : ReadRest) (s : State) :
    (resumeRead true r s).emuRest = none := by
  match r with
  | .port b => exact (busReadFrom_atomic b.port b.devices b.acc { s with emuRest := none }).1
  | .settle k bus =>
    obtain ⟨as, hsettle⟩ := s.settleRead_frame k
    have hnone : (s.settleRead k).emuRest = none := by rw [hsettle]
    match bus with
    | none => exact hnone
    | some b => exact (busReadFrom_atomic b.port b.devices _ _).1.trans hnone

theorem State.finishRead_emuRest (s : State) : s.finishRead.emuRest = none := by
  unfold State.finishRead
  split
  · assumption
  · exact resumeRead_atomic_emuRest _ s

theorem State.finishRead_stop (s : State) : s.finishRead.stop = s.stop := by
  obtain ⟨as, is, x, e, hframe⟩ := s.finishRead_frame
  rw [hframe]

theorem State.finishReceive_stop (s : State) : s.finishReceive.stop = s.stop := by
  obtain ⟨as, hframe⟩ := s.finishReceive_frame
  rw [hframe]

/-- A transaction's outcome depends on the stop mark and on what its body leaves. -/
theorem State.transact_congr {t : State} {body : State → State} (hstop : t.stop = s.stop)
    (hbody : body t = body s) : s.transact body = t.transact body := by
  simp only [State.transact, hstop, hbody]

theorem State.finishRead_idem (s : State) : s.finishRead.finishRead = s.finishRead :=
  State.finishRead_of_none s.finishRead_emuRest

theorem State.finishReceive_idem (s : State) : s.finishReceive.finishReceive = s.finishReceive :=
  State.finishReceive_of_none s.finishReceive_hostRest

/-- Every transaction but `RX_DATA` finishes the emulation thread's read before anything else. -/
theorem exec_finishes_read {i : Instr} (hi : ∀ n v, i ≠ .rxData n v) :
    ∃ body : State → State, (∀ s, exec i s = s.transact body) ∧
      ∀ s, body s.finishRead = body s := by
  cases i
  case rxData n v => exact absurd rfl (hi n v)
  all_goals exact ⟨_, fun _ => rfl, fun s => by simp only [s.finishRead_idem]⟩

/-- Settles O46: finishing what is outstanding leaves nothing to finish, and the last sub-step of a
read or of a received byte is one write of the ACIA's flags. -/
theorem ownSubStepComesFirst : Obligations.OwnSubStepComesFirst := by
  intro s i
  refine ⟨fun hi => ⟨?_, s.finishRead_emuRest⟩, fun n v => ⟨?_, s.finishReceive_hostRest⟩,
    fun n a b empty bus ha hrest hlast => ?_, fun n a ha hhost => ?_⟩
  · obtain ⟨body, hexec, hbody⟩ := exec_finishes_read hi
    rw [hexec, hexec, State.transact_congr s.finishRead_stop (hbody s)]
  · exact State.transact_congr (body := fun t => receive n v t.finishReceive) s.finishReceive_stop
      (congrArg (receive n v) s.finishReceive_idem)
  · rw [State.finishRead, hrest, ← aciaSettleRead_eq]
    refine (resumeRead_settle_last hlast true ⟨n, empty, b⟩).trans ?_
    rw [State.settleRead_of_acia ha]
    cases bus <;> rfl
  · rw [← aciaSettleReceive_eq]
    exact State.finishReceive_of_acia ha hhost

end OwnFirst

end Sys2Proof.Machine
end

section
/-! Vector V54 of spec/95_test_vectors.md: the order rd.a, rx.a, rx.b, rd.b of the sub-steps of rule
R165 leaves a byte in the queue with RDRF clear. -/

namespace Sys2Proof.Machine

theorem run_succ_of_step (M : Host.Core) {s t : M.State} (h : M.step s = .next t) (k : Nat) :
    M.run (k + 1) s = M.run k t := by
  rw [Host.Core.run, h]

theorem State.putAcia_acia {s : State} {n : Nat} {a : Acia} (ha : s.acias[n]? = some a)
    (a' : Acia) : (s.putAcia n a').acias[n]? = some a' :=
  List.getElem?_set_self (List.getElem?_eq_some_iff.1 ha).1

/-- The registers after rd.a of a queue `[x]`, then rx.a and rx.b of `y`, then the rd.b whose
`empty?` is from before `y` came. -/
def aciaStranded (x y : Byte) (a : Acia) : Acia :=
  aciaSettleRead true (aciaSettleReceive (aciaEnqueue y (aciaTake x [] a)))

/-- The late rd.b clears the flags that rx.b set. -/
theorem aciaStranded_eq (x y : Byte) (a : Acia) :
    aciaStranded x y a =
      { a with hold := x, rxq := [y], status := a.status &&& 0x7E#8, irqLine := false } := by
  have hclears (m : Byte) (hm : m &&& 0x7E#8 = 0#8) :
      (a.status ||| m) &&& 0x7E#8 = a.status &&& 0x7E#8 := by
    rw [BitVec.and_or_distrib_right, hm, BitVec.or_zero]
  rw [aciaStranded, aciaSettleRead_eq, aciaSettleReceive_eq, if_pos rfl]
  split
  · simp only [aciaEnqueue, aciaTake, hclears 0x81#8 rfl, List.nil_append]
  · simp only [aciaEnqueue, aciaTake, hclears 0x01#8 rfl, List.nil_append]

/-- A running board `c` between two sub-steps: the registers `a` of ACIA `n`, what the emulation
thread and the producer have outstanding, and the inputs to come. -/
structure State.Between (s : State) (c : Config) (n : Nat) (a : Acia) (emu : Option ReadRest)
    (host : Option Nat) (inputs : List Presented) : Prop where
  running : s.stop = .running
  config : s.config = c
  acia : s.acias[n]? = some a
  emuRest : s.emuRest = emu
  hostRest : s.hostRest = host
  pending : s.pending = inputs

/-- `i` reads the data register of ACIA `n`, by the device's key or by a port that only that register
matches, and `r` is what it returns for the byte `x`. -/
def ReadsDataRegister (c : Config) (n : Nat) (x : Byte) (i : Instr) (r : Result) : Prop :=
  i = .aciaRdData n ∧ r = .opinion (some x) ∨
    ∃ p base xs ys, i = .busRead p ∧ r = .byte x ∧
      c.devices = xs ++ ⟨base, .acia n⟩ :: ys ∧
      (∀ e ∈ xs ++ ys, matchPort c e p = none) ∧
      matchPort c ⟨base, .acia n⟩ p = some 1

section Interleaving

variable {s : State} {c : Config} {n : Nat} {a : Acia} {x y : Byte} {k : Transaction}
  {emu : Option ReadRest} {host : Option Nat} {rest : List Presented}

/-- Sub-step rx.a. -/
theorem State.Between.receiveEnqueue (h : s.Between c n a emu none (.transaction k :: rest))
    (hsplit : c.rxAtomic = false) (hk : decode k = .ok (.rxData n y)) :
    ∃ t, step s = .next t ∧ t.Between c n (aciaEnqueue y a) emu (some n) rest := by
  obtain ⟨hrun, rfl, ha, rfl, hhost, hpending⟩ := h
  exact ⟨_, (stepRunsDecodedTransaction s k rest _ hrun hpending hk).trans
    (exec_rxData_of_split (s := { s with pending := rest }) hrun hhost hsplit ha y),
    hrun, rfl, State.putAcia_acia ha _, rfl, rfl, rfl⟩

/-- Sub-step rx.b. -/
theorem State.Between.receiveSettle
    (h : s.Between c n a emu (some n) (.resume .producer :: rest)) :
    ∃ t, step s = .next t ∧ t.Between c n (aciaSettleReceive a) emu none rest := by
  obtain ⟨hrun, rfl, ha, rfl, hhost, hpending⟩ := h
  exact ⟨_, step_of_resume_producer hrun hpending ha hhost,
    hrun, rfl, State.putAcia_acia ha _, rfl, rfl, rfl⟩

/-- Sub-step rd.b, the last of its read. -/
theorem State.Between.readSettle {empty : Bool} {bus : Option BusRest}
    (h : s.Between c n a (some (.settle ⟨n, empty, x⟩ bus)) host (.resume .emulation :: rest))
    (hlast : EndsRead c bus) :
    ∃ t, step s = .next t ∧ t.result = settledResult x bus ∧
      t.Between c n (aciaSettleRead empty a) none host rest := by
  obtain ⟨hrun, rfl, ha, hemu, rfl, hpending⟩ := h
  exact ⟨_, step_of_resume_last hrun hpending ha hemu hlast, rfl,
    hrun, rfl, State.putAcia_acia ha _, rfl, rfl, rfl⟩

/-- Sub-step rd.a of a read of the queue `[x]`: nothing but its rd.b is left. -/
theorem State.Between.readTake {i : Instr} {r : Result}
    (h : s.Between c n a none none (.transaction k :: rest)) (hsplit : c.rxAtomic = false)
    (hk : decode k = .ok i) (hq : a.rxq = [x])
    (hread : ReadsDataRegister c n x i r) :
    ∃ bus, EndsRead c bus ∧ settledResult x bus = r ∧ ∃ t, step s = .next t ∧
      t.Between c n (aciaTake x [] a) (some (.settle ⟨n, true, x⟩ bus)) none rest := by
  obtain ⟨hrun, rfl, ha, hemu, hhost, hpending⟩ := h
  have hready : State.Ready { s with pending := rest } := ⟨hrun, hemu⟩
  have hstep := stepRunsDecodedTransaction s k rest i hrun hpending hk
  have hacia := State.putAcia_acia ha (aciaTake x [] a)
  rcases hread with ⟨rfl, rfl⟩ | ⟨p, base, xs, ys, rfl, rfl, hdevices, hothers, hmatch⟩
  · exact ⟨none, nofun, rfl, _, hstep.trans (exec_aciaRdData_of_split hready hsplit ha hq),
      hrun, rfl, hacia, rfl, hhost, rfl⟩
  · refine ⟨some ⟨p, ys, 0xFF#8⟩, ?_, congrArg Result.byte BitVec.allOnes_and, _,
      hstep.trans (exec_busRead_of_queue hready hsplit ha hdevices hothers hmatch hq),
      hrun, rfl, hacia, rfl, hhost, rfl⟩
    rintro _ ⟨⟩
    exact (List.forall_mem_append.1 hothers).2

/-- Settles O45: each input runs one sub-step, and what the four leave of the ACIA is
`aciaStranded`. -/
theorem interleavingStrandsByte : Obligations.InterleavingStrandsByte := by
  intro s n a x y k k' i r hs hhost hsplit ha hq hread hi hrx hpending
  have h : s.Between s.config n a none none _ := ⟨hs.1, rfl, ha, hs.2, hhost, hpending⟩
  obtain ⟨bus, hlast, rfl, s₁, hreadTake, h₁⟩ := h.readTake hsplit hi hq hread
  obtain ⟨s₂, hreceiveEnqueue, h₂⟩ := h₁.receiveEnqueue hsplit hrx
  obtain ⟨s₃, hreceiveSettle, h₃⟩ := h₂.receiveSettle
  obtain ⟨t, hreadSettle, hresult, ht⟩ := h₃.readSettle hlast
  refine ⟨t, aciaStranded x y a, ?_, hresult, ht.acia, ?_⟩
  · rw [run_succ_of_step core hreadTake, run_succ_of_step core hreceiveEnqueue,
      run_succ_of_step core hreceiveSettle, run_succ_of_step core hreadSettle]
    rfl
  · rw [aciaStranded_eq]
    exact ⟨rfl, rfl, rfl, rfl⟩

end Interleaving

end Sys2Proof.Machine
end

section
/-! Rule R164 of spec/42_acia.md: every ACIA's line agrees with its status bit 7, and every operation
but a master reset that leaves the line (decision D6) keeps that. -/

namespace Sys2Proof.Machine

/-- The line of one ACIA is its status bit 7. -/
def Acia.LineFollows (a : Acia) : Prop := a.irqLine = a.status.getLsbD 7

/-- The line of every ACIA is. -/
def State.LinesFollow (s : State) : Prop := ∀ a ∈ s.acias, a.LineFollows

/-! ### The registers of one ACIA -/

section Registers

variable {a : Acia}

theorem Acia.LineFollows.setStatus {m : Byte} (hm : m.getLsbD 7 = false) (h : a.LineFollows) :
    Acia.LineFollows { a with status := a.status ||| m } := by
  rw [Acia.LineFollows, BitVec.getLsbD_or, hm, Bool.or_false]
  exact h

theorem Acia.lineFollows_raise (a : Acia) :
    Acia.LineFollows { a with status := a.status ||| 0x81#8, irqLine := true } := by
  rw [Acia.LineFollows, BitVec.getLsbD_or]
  exact (Bool.or_true _).symm

theorem Acia.lineFollows_lower (a : Acia) :
    Acia.LineFollows { a with status := a.status &&& 0x7E#8, irqLine := false } := by
  rw [Acia.LineFollows, BitVec.getLsbD_and]
  exact (Bool.and_false _).symm

theorem aciaConfigure_lineFollows (v : Byte) (h : a.LineFollows) :
    (aciaConfigure v a).LineFollows :=
  h.setStatus (m := tdre) rfl

theorem aciaTransmit_lineFollows (h : a.LineFollows) : (aciaTransmit a).LineFollows :=
  h.setStatus (m := tdre) rfl

theorem aciaTake_lineFollows (b : Byte) (q : List Byte) (h : a.LineFollows) :
    (aciaTake b q a).LineFollows := h

theorem aciaEnqueue_lineFollows (b : Byte) (h : a.LineFollows) : (aciaEnqueue b a).LineFollows := h

theorem aciaSettleRead_lineFollows (empty : Bool) (h : a.LineFollows) :
    (aciaSettleRead empty a).LineFollows := by
  rw [aciaSettleRead_eq]
  split
  · exact a.lineFollows_lower
  · split
    · exact a.lineFollows_raise
    · exact h.setStatus rfl

theorem aciaSettleReceive_lineFollows (h : a.LineFollows) : (aciaSettleReceive a).LineFollows := by
  rw [aciaSettleReceive_eq]
  split
  · exact a.lineFollows_raise
  · exact h.setStatus rfl

end Registers

/-! ### Updates of the state -/

section Updates

variable {s t : State} {n : Nat}

theorem State.LinesFollow.of_acias (h : t.acias = s.acias) (hs : s.LinesFollow) : t.LinesFollow :=
  fun a ha => hs a (h ▸ ha)

theorem State.LinesFollow.acia (hs : s.LinesFollow) {a : Acia} (ha : s.acias[n]? = some a) :
    a.LineFollows :=
  hs a (List.mem_of_getElem? ha)

theorem State.LinesFollow.putAcia (hs : s.LinesFollow) {a : Acia} (ha : a.LineFollows) :
    (s.putAcia n a).LinesFollow := fun x hx =>
  (List.mem_or_eq_of_mem_set hx).elim (hs x) fun hxa => hxa ▸ ha

variable {f : Acia → Acia} (hf : ∀ a, a.LineFollows → (f a).LineFollows)
include hf

theorem State.LinesFollow.withAcia (hs : s.LinesFollow) (h : s.withAcia n f = .ok t) :
    t.LinesFollow := by
  obtain ⟨a, ha, rfl⟩ := State.withAcia_ok.1 h
  exact hs.putAcia (hf a (hs.acia ha))

theorem State.LinesFollow.updateAcia (hs : s.LinesFollow) (n : Nat) :
    (s.updateAcia n f).LinesFollow := by
  unfold State.updateAcia
  split
  · rename_i a ha
    exact hs.putAcia (hf a (hs.acia ha))
  · exact hs

end Updates

/-! ### Reads and outstanding sub-steps -/

section Reads

variable {s t : State} {atomic : Bool}

theorem deviceRead_linesFollow {d : DeviceRef} {off : Nat} {o : Option Byte}
    (h : deviceRead atomic d off s = .ok (.answered t o)) (hs : s.LinesFollow) :
    t.LinesFollow := by
  rcases deviceRead_answered h with
    rfl | ⟨n, a, b, q, -, -, -, ha, -, rfl⟩ | ⟨n, g, e, -, -, -, -, rfl⟩ |
      ⟨n, g, e, -, -, -, rfl⟩
  · exact hs
  · exact hs.putAcia (aciaSettleRead_lineFollows q.isEmpty (aciaTake_lineFollows b q (hs.acia ha)))
  · exact hs
  · exact hs

theorem deviceRead_split_linesFollow {d : DeviceRef} {off : Nat} {k : Taken}
    (h : deviceRead atomic d off s = .ok (.split t k)) (hs : s.LinesFollow) : t.LinesFollow := by
  obtain ⟨n, a, b, q, -, -, -, ha, -, rfl, -⟩ := deviceRead_split h
  exact hs.putAcia (aciaTake_lineFollows b q (hs.acia ha))

theorem busReadFrom_linesFollow (p : U16) (ds : List Installed) (acc : Byte)
    (hs : s.LinesFollow) : (busReadFrom atomic p ds acc s).LinesFollow := by
  induction ds generalizing acc s with
  | nil => exact hs
  | cons d ds ih =>
    unfold busReadFrom
    split
    · exact ih _ hs
    · split
      · exact ih _ hs
      · rename_i hread
        have ht := deviceRead_linesFollow hread hs
        split
        · exact ht
        · exact ih _ ht
      · rename_i hread
        have ht := deviceRead_split_linesFollow hread hs
        exact ht

theorem State.settleRead_linesFollow (k : Taken) (hs : s.LinesFollow) :
    (s.settleRead k).LinesFollow :=
  State.LinesFollow.updateAcia (s := { s with emuRest := none })
    (fun _ => aciaSettleRead_lineFollows k.empty) hs k.dev

theorem resumeRead_linesFollow (r : ReadRest) (hs : s.LinesFollow) :
    (resumeRead atomic r s).LinesFollow := by
  unfold resumeRead
  split
  · exact busReadFrom_linesFollow (s := { s with emuRest := none }) _ _ _ hs
  · exact State.settleRead_linesFollow _ hs
  · split
    · exact State.settleRead_linesFollow _ hs
    · exact busReadFrom_linesFollow _ _ _ (State.settleRead_linesFollow _ hs)

theorem State.finishRead_linesFollow (hs : s.LinesFollow) : s.finishRead.LinesFollow := by
  unfold State.finishRead
  split
  · exact hs
  · exact resumeRead_linesFollow _ hs

theorem State.finishReceive_linesFollow (hs : s.LinesFollow) : s.finishReceive.LinesFollow := by
  unfold State.finishReceive
  split
  · exact hs
  · exact State.LinesFollow.updateAcia (s := { s with hostRest := none })
      (fun _ => aciaSettleReceive_lineFollows) hs _

end Reads

/-! ### Writes -/

section Writes

variable {s t : State} {n off : Nat} {v : Byte}

theorem writeIdeGated_acias {f : IdeConfig → Ide → Ide} (h : writeIdeGated f n s = .ok t) :
    t.acias = s.acias := by
  obtain ⟨g, d, -, rfl⟩ := writeIdeGated_ok.1 h
  split <;> rfl

theorem writeIdeData_acias (h : writeIdeData n v s = .ok t) : t.acias = s.acias := by
  unfold writeIdeData at h
  split at h
  · cases h
  · split at h
    · split at h; cases h
    · cases h; rfl

theorem writeIdeDrvhead_acias (h : writeIdeDrvhead n v s = .ok t) : t.acias = s.acias := by
  unfold writeIdeDrvhead at h
  split at h <;> cases h
  rfl

theorem ideUnrecognized_acias (h : ideUnrecognized n v s = .ok t) : t.acias = s.acias := by
  unfold ideUnrecognized at h
  split at h
  · cases h
  · split at h
    · split at h <;> cases h
      rfl
    · cases h; rfl

theorem ideCommand_acias (h : ideCommand n v s = .ok t) : t.acias = s.acias := by
  unfold ideCommand at h
  split at h
  · exact writeIdeGated_acias h
  · split at h
    · exact writeIdeGated_acias h
    · exact ideUnrecognized_acias h

theorem ideWriteAt_acias (h : ideWriteAt off n v s = .ok t) : t.acias = s.acias := by
  unfold ideWriteAt at h
  split at h
  case h_1 => exact writeIdeData_acias h
  case h_7 => exact writeIdeDrvhead_acias h
  case h_8 => exact ideCommand_acias h
  case h_9 => cases h; rfl
  all_goals exact writeIdeGated_acias h

theorem writeDio_acias (h : writeDio n v s = .ok t) : t.acias = s.acias := by
  unfold writeDio at h
  split at h <;> cases h
  rfl

theorem setDioInput_acias (h : setDioInput n v s = .ok t) : t.acias = s.acias := by
  unfold setDioInput at h
  split at h <;> cases h
  rfl

theorem writeAciaConfigure_linesFollow (h : writeAciaConfigure n v s = .ok t)
    (hs : s.LinesFollow) : t.LinesFollow :=
  hs.withAcia (fun _ => aciaConfigure_lineFollows v) h

theorem writeAciaData_linesFollow (h : writeAciaData n v s = .ok t) (hs : s.LinesFollow) :
    t.LinesFollow :=
  State.LinesFollow.withAcia (s := s.emit (.txByte n v)) (fun _ => aciaTransmit_lineFollows) hs h

/-- Decision D6: a master reset clears the status, and the line with it only under the
parameter. -/
theorem writeAciaMasterReset_linesFollow (hclears : s.config.aciaMrClearsIrqLine = true)
    (h : writeAciaMasterReset n v s = .ok t) (hs : s.LinesFollow) : t.LinesFollow := by
  refine hs.withAcia (fun a _ => ?_) h
  rw [hclears]
  exact BitVec.getLsbD_zero.symm

/-- A control write of `v` cannot part an ACIA's line from its status. -/
def KeepsLine (c : Config) (v : Byte) : Prop :=
  c.aciaMrClearsIrqLine = true ∨ isMasterReset v = false

theorem deviceWrite_linesFollow {d : DeviceRef}
    (hcontrol : ∀ n, d = .acia n → off = 0 → KeepsLine s.config v)
    (h : deviceWrite d off v s = .ok t) (hs : s.LinesFollow) : t.LinesFollow := by
  cases d with
  | bank => cases h; exact hs
  | ide n => exact hs.of_acias (ideWriteAt_acias h)
  | dio n => exact hs.of_acias (writeDio_acias h)
  | acia n =>
    change aciaWriteAt off n v s = .ok t at h
    unfold aciaWriteAt at h
    split at h
    · unfold writeAciaControl at h
      split at h
      · rename_i hreset
        have hclears := (hcontrol n rfl rfl).resolve_right (by simp [hreset])
        exact writeAciaMasterReset_linesFollow hclears h hs
      · exact writeAciaConfigure_linesFollow h hs
    · exact writeAciaData_linesFollow h hs
    · cases h; exact hs

theorem busWriteFrom_linesFollow {p : U16} {ds : List Installed}
    (hcontrol : ∀ d ∈ ds, ∀ n, d.dev = .acia n → matchPort s.config d p = some 0 →
      KeepsLine s.config v)
    (h : busWriteFrom p v ds s = .ok t) (hs : s.LinesFollow) : t.LinesFollow := by
  induction ds generalizing s with
  | nil => cases h; exact hs
  | cons d ds ih =>
    obtain ⟨hd, hds⟩ := List.forall_mem_cons.1 hcontrol
    unfold busWriteFrom at h
    split at h
    · exact ih hds h hs
    · rename_i off hmatch
      split at h
      · cases h
      · rename_i hwrite
        refine ih ?_ h (deviceWrite_linesFollow (fun n hn hoff => ?_) hwrite hs)
        · rwa [(deviceWrite_keeps hwrite).config]
        · exact hd n hn (hoff ▸ hmatch)

end Writes

/-! ### The CPU window -/

section Window

variable (s : State)

theorem cpuRead_acias (a : U16) : (cpuRead s a).1.acias = s.acias := by
  obtain ⟨l, h⟩ := cpuRead_state s a
  rw [h]

theorem cpuWrite_acias (a : U16) (v : Byte) : (cpuWrite s a v).1.acias = s.acias := by
  obtain ⟨l, h | ⟨-, h⟩⟩ := cpuWrite_state s a v <;> rw [h]
  rfl

theorem storeBytes_acias (a : Nat) (bs : List Byte) : (storeBytes s a bs).1.acias = s.acias := by
  induction bs generalizing s a with
  | nil => rfl
  | cons b bs ih =>
    have hb := cpuWrite_acias s (BitVec.ofNat 16 a) b
    unfold storeBytes
    split <;> rename_i h <;> rw [h] at hb
    · exact (ih _ _).trans hb
    · exact hb

theorem fetchBytes_acias (a n : Nat) : (fetchBytes s a n).1.acias = s.acias := by
  obtain ⟨l, h⟩ := fetchBytes_state s a n
  rw [h]

theorem getContents_acias (start : Int) (buffer : List Byte) (index len : Int) :
    (getContents start buffer index len s).acias = s.acias := by
  have hfetch := fetchBytes_acias s start.toNat len.toNat
  unfold getContents
  split
  · rfl
  · split <;> rename_i h <;> rw [h] at hfetch <;> exact hfetch

theorem setContents_acias (start : Int) (buffer : List Byte) (index len : Int) :
    (setContents start buffer index len s).acias = s.acias := by
  have hstore := storeBytes_acias s start.toNat (bulkSlice buffer index len)
  unfold setContents
  split
  · rfl
  · split <;> rename_i h <;> rw [h] at hstore <;> exact hstore

end Window

/-! ### Transactions -/

section Transactions

variable {s t : State}

theorem emulation_linesFollow {body : State → State}
    (hbody : ∀ u, u.config = s.config → u.LinesFollow → (body u).LinesFollow)
    (h : s.emulation body = .next t) (hs : s.LinesFollow) : t.LinesFollow := by
  obtain ⟨-, rfl, -⟩ := State.emulation_eq_next.1 h
  exact hbody _ s.finishRead_keeps.config (State.finishRead_linesFollow hs)

theorem performRead_linesFollow (d : DeviceRef) (off : Nat)
    (h : s.performRead (fun u => deviceRead u.config.rxAtomic d off u) = .next t)
    (hs : s.LinesFollow) : t.LinesFollow := by
  refine emulation_linesFollow (fun u _ hu => ?_) h hs
  split
  · exact hu
  · rename_i hread
    have hw := deviceRead_linesFollow hread hu
    exact hw
  · rename_i hread
    have hw := deviceRead_split_linesFollow hread hu
    exact hw

theorem settleWrite_linesFollow {w : Except Refusal State}
    (hw : ∀ u, w = .ok u → s.LinesFollow → u.LinesFollow) (hs : s.LinesFollow) :
    (s.settleWrite w).LinesFollow := by
  cases w with
  | error r => exact hs
  | ok u => exact hw u rfl hs

theorem performWrite_linesFollow {rule : State → Except Refusal State}
    (hrule : ∀ u w, u.config = s.config → rule u = .ok w → u.LinesFollow → w.LinesFollow)
    (h : s.performWrite rule = .next t) (hs : s.LinesFollow) : t.LinesFollow :=
  emulation_linesFollow (fun u hu => settleWrite_linesFollow fun w => hrule u w hu) h hs

/-- A write transaction that no ACIA takes part in. -/
theorem performWrite_acias_linesFollow {rule : State → Except Refusal State}
    (hrule : ∀ u w, rule u = .ok w → w.acias = u.acias)
    (h : s.performWrite rule = .next t) (hs : s.LinesFollow) : t.LinesFollow :=
  performWrite_linesFollow (fun u w _ hw => .of_acias (hrule u w hw)) h hs

theorem receive_linesFollow (n : Nat) (v : Byte) (hs : s.LinesFollow) :
    (receive n v s).LinesFollow := by
  unfold receive
  split
  · exact settleWrite_linesFollow (fun _ hu hs => hs.withAcia
      (fun _ => aciaSettleReceive_lineFollows ∘ aciaEnqueue_lineFollows v) hu) hs
  · exact settleWrite_linesFollow (fun _ hu hs => State.LinesFollow.withAcia
      (s := { s with hostRest := some n }) (fun _ => aciaEnqueue_lineFollows v) hs hu) hs

/-- Where no master reset leaves a line, every transaction keeps the lines with the status. -/
theorem exec_linesFollow {i : Instr}
    (hreset : ∀ n v, i = .aciaWrCtrlMr n v → s.config.aciaMrClearsIrqLine = true)
    (hport : ∀ p v, i = .busWrite p v → ∀ d ∈ s.config.devices, ∀ n, d.dev = .acia n →
      matchPort s.config d p = some 0 → KeepsLine s.config v)
    (h : exec i s = .next t) (hs : s.LinesFollow) : t.LinesFollow := by
  cases i with
  | busRead p =>
    rw [exec_busRead] at h
    exact emulation_linesFollow (fun u _ => busReadFrom_linesFollow p u.config.devices _) h hs
  | busWrite p v =>
    rw [exec_busWrite] at h
    exact performWrite_linesFollow (fun u w hu =>
      busWriteFrom_linesFollow (by rw [hu]; exact hport p v rfl)) h hs
  | bankWrSelect v =>
    refine performWrite_acias_linesFollow (rule := writeBank v) (fun u w hw => ?_) h hs
    cases hw; rfl
  | bankRd => exact performRead_linesFollow .bank 0 h hs
  | aciaWrCtrlMr n v =>
    exact performWrite_linesFollow (rule := writeAciaMasterReset n v) (fun u w hu =>
      writeAciaMasterReset_linesFollow (hu ▸ hreset n v rfl)) h hs
  | aciaWrCtrl n v =>
    exact performWrite_linesFollow (rule := writeAciaConfigure n v)
      (fun _ _ _ => writeAciaConfigure_linesFollow) h hs
  | aciaWrData n v =>
    exact performWrite_linesFollow (rule := writeAciaData n v)
      (fun _ _ _ => writeAciaData_linesFollow) h hs
  | aciaRdStatus n => exact performRead_linesFollow (.acia n) 0 h hs
  | aciaRdData n => exact performRead_linesFollow (.acia n) 1 h hs
  | ideRdData n => exact performRead_linesFollow (.ide n) 0 h hs
  | ideRdError n => exact performRead_linesFollow (.ide n) 1 h hs
  | ideRdSeccnt n => exact performRead_linesFollow (.ide n) 2 h hs
  | ideRdSecnum n => exact performRead_linesFollow (.ide n) 3 h hs
  | ideRdCyllo n => exact performRead_linesFollow (.ide n) 4 h hs
  | ideRdCylhi n => exact performRead_linesFollow (.ide n) 5 h hs
  | ideRdDrvhead n => exact performRead_linesFollow (.ide n) 6 h hs
  | ideRdStatus n => exact performRead_linesFollow (.ide n) 7 h hs
  | ideWrData n v => exact performWrite_acias_linesFollow (fun _ _ => writeIdeData_acias) h hs
  | ideWrDrvhead n v =>
    exact performWrite_acias_linesFollow (fun _ _ => writeIdeDrvhead_acias) h hs
  | ideCmdOther n v =>
    exact performWrite_acias_linesFollow (fun _ _ => ideUnrecognized_acias) h hs
  | ideWrFeatures n v | ideWrSeccnt n v | ideWrSecnum n v | ideWrCyllo n v | ideWrCylhi n v
  | ideCmdIdentify n | ideCmdSetFeatures n =>
    refine performWrite_acias_linesFollow (fun _ _ hw => ?_) h hs
    exact writeIdeGated_acias hw
  | dioRd n => exact performRead_linesFollow (.dio n) 0 h hs
  | dioWr n v => exact performWrite_acias_linesFollow (fun _ _ => writeDio_acias) h hs
  | memRead a =>
    rw [exec_memRead] at h
    refine emulation_linesFollow (fun u _ hu => ?_) h hs
    have hread := cpuRead_acias u a
    split <;> rename_i heq <;> rw [heq] at hread <;> exact hu.of_acias hread
  | memWrite a v =>
    rw [exec_memWrite] at h
    refine emulation_linesFollow (fun u _ hu => ?_) h hs
    have hwrite := cpuWrite_acias u a v
    split <;> rename_i heq <;> rw [heq] at hwrite <;> exact hu.of_acias hwrite
  | memGetContents a b i l =>
    exact emulation_linesFollow (fun u _ => .of_acias (getContents_acias u a b i l)) h hs
  | memSetContents a b i l =>
    exact emulation_linesFollow (fun u _ => .of_acias (setContents_acias u a b i l)) h hs
  | rxData n v =>
    rw [exec_rxData] at h
    obtain ⟨-, rfl, -⟩ := State.transact_eq_next.1 h
    exact receive_linesFollow n v (State.finishReceive_linesFollow hs)
  | irqQuery n =>
    rw [exec_irqQuery] at h
    refine emulation_linesFollow (fun u _ hu => ?_) h hs
    split <;> exact hu
  | dioSetInput n v => exact performWrite_acias_linesFollow (fun _ _ => setDioInput_acias) h hs

end Transactions

/-- Settles O42: the excepted transactions are those whose master reset leaves the line. -/
theorem interruptLineFollowsStatus : Obligations.InterruptLineFollowsStatus := by
  intro s t i hs hexec hexcept
  refine exec_linesFollow (fun n v hi => ?_) (fun p v hi d hd n hdev hmatch => ?_) hexec hs
  · exact hexcept.resolve_right fun h => h.1 n v hi
  · refine hexcept.imp_right fun h => ?_
    by_contra hreset
    have hpattern : v.extractLsb' 0 2 = 3#2 := beq_iff_eq.1 (Bool.of_not_eq_false hreset)
    exact h.2 p v hi hpattern d hd n hdev hmatch

end Sys2Proof.Machine
end

section
/-! The IDE controller's transactions (spec/43_ide.md): what each does on a controller that the
drive-select gate lets through and on one that it does not, the bytes of the identify block, and
runs of data reads. -/

namespace Sys2Proof

/-! ### Keys -/

/-- A key's value stands in its low half, below the fields of its high half (rule R101). -/
theorem mkKey_eq_or (d : BitVec 1) (u : BitVec 3) (o : BitVec 4) (v : Byte) :
    mkKey d u o v = mkKey d u o 0#8 ||| v.setWidth 16 := by
  refine BitVec.eq_of_getLsbD_eq fun i hi => ?_
  have hbit (w : Byte) : (mkKey d u o w).getLsbD i =
      if i < 8 then w.getLsbD i else (d ++ u ++ o).getLsbD (i - 8) := BitVec.getLsbD_append
  rw [BitVec.getLsbD_or, hbit, hbit, BitVec.getLsbD_setWidth]
  by_cases hlow : i < 8
  · simp [hlow, hi]
  · simp [hlow, BitVec.getLsbD_of_ge v i (Nat.le_of_not_lt hlow)]

/-- The key of a transaction that carries a value, from its high half and that value. -/
theorem decode_high_or_value {i : Instr} {d : BitVec 1} {u : BitVec 3} {o : BitVec 4} {v : Byte}
    {x : Operands} {k : U16} (hi : i.WellFormed) (hkey : encode i = ⟨mkKey d u o v, x⟩)
    (hhigh : mkKey d u o 0#8 = k) : decode ⟨k ||| v.setWidth 16, x⟩ = .ok i := by
  rw [← hhigh, ← mkKey_eq_or, ← hkey]
  exact decodeInvertsEncode i hi

namespace Machine

/-! ### The identify block (rules R215 and R216) -/

section Identify

variable {c : Config} {g : IdeConfig} {k : Nat}

theorem toNat_lo8 (w : U16) : (lo8 w).toNat = w.toNat % 0x100 := by
  simp [lo8, BitVec.extractLsb'_toNat]

theorem toNat_hi8 (w : U16) : (hi8 w).toNat = w.toNat / 0x100 := by
  have := w.isLt
  simp only [hi8, BitVec.extractLsb'_toNat, Nat.shiftRight_eq_div_pow]
  omega

/-- Rule R216: a word's low byte stands first. -/
theorem identifyBlock_even (hk : k < 256) :
    (identifyBlock c g)[2 * k] = lo8 (identifyWord c g ⟨k, hk⟩) := by
  simp [identifyBlock, identifyByte]

theorem identifyBlock_odd (hk : k < 256) :
    (identifyBlock c g)[2 * k + 1] = hi8 (identifyWord c g ⟨k, hk⟩) := by
  have hhalf : (2 * k + 1) / 2 = k := by omega
  simp [identifyBlock, identifyByte, Nat.add_mod, hhalf]

/-- Rule R215: a product that fits 32 bits is split into two words whole. -/
theorem toNat_identifyWord (hproduct : lbaCount g ≤ 0xFFFFFFFF) (hk : k < 256) :
    (identifyWord c g ⟨k, hk⟩).toNat =
      if k = 1 then g.cylinders.toNat
      else if k = 3 then g.heads.toNat
      else if k = 6 then g.sectorsPerTrack.toNat
      else if k = c.identLbaWord then lbaCount g % 0x10000
      else if k = c.identLbaWord + 1 then lbaCount g / 0x10000
      else c.identTemplate[k].toNat := by
  have hlow : ((BitVec.ofNat 32 (lbaCount g)).extractLsb' 0 16).toNat = lbaCount g % 0x10000 := by
    simp only [BitVec.extractLsb'_toNat, BitVec.toNat_ofNat, Nat.shiftRight_zero]
    omega
  have hhigh : ((BitVec.ofNat 32 (lbaCount g)).extractLsb' 16 16).toNat =
      lbaCount g / 0x10000 := by
    simp only [BitVec.extractLsb'_toNat, BitVec.toNat_ofNat, Nat.shiftRight_eq_div_pow]
    omega
  rw [← hlow, ← hhigh]
  unfold identifyWord
  split_ifs <;> rfl

/-- Settles O55: admission bounds the product, so each byte is half of its word's number. -/
theorem identifyBlockContents : Obligations.IdentifyBlockContents := by
  intro c g k hk w hadmitted hg hw
  have hproduct : lbaCount g ≤ 0xFFFFFFFF :=
    c.meets_geometryProduct.1 (c.admitted_iff_meets.1 hadmitted .geometryProduct) g hg
  obtain rfl : w = (identifyWord c g ⟨k, hk⟩).toNat :=
    hw.trans (toNat_identifyWord hproduct hk).symm
  exact ⟨identifyBlock_even hk ▸ toNat_lo8 _, identifyBlock_odd hk ▸ toNat_hi8 _⟩

end Identify

/-! ### The drive-select gate (rules R181 to R183) -/

/-- IDE controller `n` has the parameters `g` and the registers `d`, and the drive-select gate lets
its transactions through, on a board ready for one. -/
structure State.Selects (s : State) (n : Nat) (g : IdeConfig) (d : Ide) : Prop where
  ready : s.Ready
  ide : s.ide? n = some (g, d)
  selected : (d.drvhead.getLsbD 4).toNat = g.driveIndex

section Gate

variable {s : State} {n : Nat} {g : IdeConfig} {d : Ide}

theorem driveSelected_iff {drvhead : Byte} {i : Nat} :
    driveSelected drvhead i = true ↔ (drvhead.getLsbD 4).toNat = i := beq_iff_eq

theorem State.Selects.gate (h : s.Selects n g d) : driveSelected d.drvhead g.driveIndex = true :=
  driveSelected_iff.2 h.selected

theorem State.Selects.performRead_register (h : s.Selects n g d) (register : Ide → Byte) :
    s.performRead (readIdeRegister register n) =
      .next (s.returning (.opinion (some (register d)))) := by
  refine State.performRead_answered h.ready ?_ h.ready.1
  simp only [readIdeRegister, h.ide, h.gate, if_true]

theorem State.Selects.performWrite_gated (h : s.Selects n g d)
    {rule : State → Except Refusal State} {f : IdeConfig → Ide → Ide}
    (hrule : rule s = writeIdeGated f n s) :
    s.performWrite rule = .next ((s.putIde n (f g d)).returning .nothing) :=
  State.performWrite_ok h.ready
    (hrule.trans (writeIdeGated_ok.2 ⟨g, d, h.ide, (if_pos h.gate).symm⟩)) h.ready.1

/-- Rule R196: drive/head is outside the gate. -/
theorem exec_ideWrDrvhead_of_ready (hs : s.Ready) (hc : s.ide? n = some (g, d)) (v : Byte) :
    exec (.ideWrDrvhead n v) s =
      .next ((s.putIde n { d with drvhead := v }).returning .nothing) := by
  rw [exec_ideWrDrvhead]
  exact State.performWrite_ok hs (by simp only [writeIdeDrvhead, hc]) hs.1

/-- Settles O51. -/
theorem driveHeadIsAlwaysWritable : Obligations.DriveHeadIsAlwaysWritable :=
  fun _ _ v _ _ hs hc => exec_ideWrDrvhead_of_ready hs hc v

/-- Settles O47: the data register and the plain registers are behind one gate. -/
theorem unselectedReadsFloat : Obligations.UnselectedReadsFloat := by
  intro s n g d hs hc hunselected
  have hgate : driveSelected d.drvhead g.driveIndex ≠ true := mt driveSelected_iff.1 hunselected
  have hdata : s.performRead (readIdeData n) = .next (s.returning (.opinion (some 0xFF#8))) :=
    State.performRead_answered hs (by simp only [readIdeData, hc, if_neg hgate]) hs.1
  have hregister (f : Ide → Byte) :
      s.performRead (readIdeRegister f n) = .next (s.returning (.opinion (some 0xFF#8))) :=
    State.performRead_answered hs (by simp only [readIdeRegister, hc, if_neg hgate]) hs.1
  simp only [List.forall_mem_cons]
  exact ⟨hdata, hregister _, hregister _, hregister _, hregister _, hregister _, hregister _,
    hregister _, List.forall_mem_nil _⟩

/-- Settles O48: every write rule but drive/head's answers the state it was given. -/
theorem unselectedWritesAreDropped : Obligations.UnselectedWritesAreDropped := by
  intro s n v g d hs hc hunselected
  refine ⟨?_, exec_ideWrDrvhead_of_ready hs hc v⟩
  have hgate : driveSelected d.drvhead g.driveIndex ≠ true := mt driveSelected_iff.1 hunselected
  have hdropped {rule : State → Except Refusal State} (hrule : rule s = .ok s) :
      s.performWrite rule = .next (s.returning .nothing) :=
    State.performWrite_ok hs hrule hs.1
  have hgated (f : IdeConfig → Ide → Ide) : writeIdeGated f n s = .ok s :=
    writeIdeGated_ok.2 ⟨g, d, hc, (if_neg hgate).symm⟩
  have hdata : writeIdeData n v s = .ok s := by simp only [writeIdeData, hc, if_neg hgate]
  have hother : ideUnrecognized n v s = .ok s := by simp only [ideUnrecognized, hc, if_neg hgate]
  simp only [List.forall_mem_cons]
  exact ⟨hdropped hdata, hdropped (hgated _), hdropped (hgated _), hdropped (hgated _),
    hdropped (hgated _), hdropped (hgated _), hdropped (rule := ideIdentify n) (hgated _),
    hdropped (rule := ideSetFeatures n) (hgated _), hdropped hother, List.forall_mem_nil _⟩

end Gate

/-! ### Plain registers of a selected controller (rules R185 to R195 and R197) -/

/-- Settles O49: each key is the one its transaction encodes to. -/
theorem selectedRegistersRead : Obligations.SelectedRegistersRead := by
  intro s n g d hs hc hselected
  have hread := State.Selects.performRead_register ⟨hs, hc, hselected⟩
  simp only [List.forall_mem_cons]
  exact ⟨⟨decodeInvertsEncode (.ideRdError n) rfl, hread Ide.error⟩,
    ⟨decodeInvertsEncode (.ideRdSeccnt n) rfl, hread Ide.seccount⟩,
    ⟨decodeInvertsEncode (.ideRdSecnum n) rfl, hread Ide.secnum⟩,
    ⟨decodeInvertsEncode (.ideRdCyllo n) rfl, hread Ide.cyllo⟩,
    ⟨decodeInvertsEncode (.ideRdCylhi n) rfl, hread Ide.cylhi⟩,
    ⟨decodeInvertsEncode (.ideRdDrvhead n) rfl, hread Ide.drvhead⟩,
    ⟨decodeInvertsEncode (.ideRdStatus n) rfl, hread Ide.status⟩, List.forall_mem_nil _⟩

/-- Settles O50: each key is the one its transaction encodes to. -/
theorem selectedRegistersWrite : Obligations.SelectedRegistersWrite := by
  intro s n v g d hs hc hselected
  have h : s.Selects n g d := ⟨hs, hc, hselected⟩
  simp only [List.forall_mem_cons]
  exact ⟨⟨decode_high_or_value (i := .ideWrSeccnt n v) rfl rfl rfl,
      (exec_ideWrSeccnt n v s).trans (h.performWrite_gated rfl)⟩,
    ⟨decode_high_or_value (i := .ideWrSecnum n v) rfl rfl rfl,
      (exec_ideWrSecnum n v s).trans (h.performWrite_gated rfl)⟩,
    ⟨decode_high_or_value (i := .ideWrCyllo n v) rfl rfl rfl,
      (exec_ideWrCyllo n v s).trans (h.performWrite_gated rfl)⟩,
    ⟨decode_high_or_value (i := .ideWrCylhi n v) rfl rfl rfl,
      (exec_ideWrCylhi n v s).trans (h.performWrite_gated rfl)⟩, List.forall_mem_nil _⟩

/-! ### The data port (rules R201 and R203) -/

section Data

variable {s : State} {n : Nat} {g : IdeConfig} {d : Ide}

theorem exec_ideRdData_of_lt (h : s.Selects n g d) (hlt : d.cursor < 512) :
    exec (.ideRdData n) s =
      .next ((s.putIde n (ideDataRead g d)).returning (.opinion (some d.buffer[d.cursor]))) := by
  rw [exec_ideRdData]
  refine State.performRead_answered h.ready ?_ h.ready.1
  simp only [readIdeData, h.ide, h.gate, ideDataRead, hlt, dite_true, if_true]

theorem exec_ideRdData_of_ge (h : s.Selects n g d) (hge : 512 ≤ d.cursor) :
    exec (.ideRdData n) s =
      .next ((s.putIde n (ideDataRead g d)).returning
        (.opinion (some (Config.draw n d.draws)))) := by
  rw [exec_ideRdData]
  refine State.performRead_answered h.ready ?_ h.ready.1
  simp only [readIdeData, h.ide, h.gate, ideDataRead, hge.not_gt, dite_false, if_true, if_false]

/-- Settles O52: the value past the end is the draw of the model's count. -/
theorem dataPortReadsBuffer : Obligations.DataPortReadsBuffer := by
  intro s n g d hs hc hselected
  have h : s.Selects n g d := ⟨hs, hc, hselected⟩
  refine ⟨fun hlt => ?_, fun hge => ⟨Config.draw n d.draws, ?_⟩⟩
  · rw [exec_ideRdData_of_lt h hlt, ideDataRead_eq, if_neg (not_not.2 hselected), if_pos hlt]
    rfl
  · rw [exec_ideRdData_of_ge h hge, ideDataRead_eq, if_neg (not_not.2 hselected),
      if_neg hge.not_gt]
    rfl

/-- Settles O53: the policy of decision D13 has one value. -/
theorem selectedDataWriteIsRefused : Obligations.SelectedDataWriteIsRefused := by
  intro s n v g d hs hc hselected
  rw [exec_ideWrData]
  refine State.performWrite_error hs ?_
  simp only [writeIdeData, hc, driveSelected_iff.2 hselected, if_true]

end Data

/-! ### Commands (rules R208 to R213) -/

section Commands

variable {s : State} {n : Nat} {g : IdeConfig} {d : Ide}

/-- Rule R212 after R208: IDENTIFY's status has no DF to clear. -/
theorem ideEndOfDispatch_identify (c : Config) (g : IdeConfig) (d : Ide) :
    ideEndOfDispatch (ideIdentifyBody c g d) =
      { d with buffer := identifyBlock c g, status := 0x58#8, cursor := 0, error := 0x00#8 } := by
  have hstatus : clearBits statusIdentified df = 0x58#8 := by decide
  rw [ideEndOfDispatch, ideIdentifyBody, hstatus]

/-- Rule R212 after an abort: ERR stays, and the ABRT code does not. -/
theorem ideEndOfDispatch_abort (d : Ide) :
    ideEndOfDispatch (ideAbort d) =
      { d with status := (d.status ||| 0x01#8) &&& 0xDF#8, error := 0x00#8 } := rfl

theorem featureAccepted_iff {f : Byte} : featureAccepted f = true ↔ f = 0x01#8 ∨ f = 0x03#8 := by
  simp [featureAccepted]

/-- The rows of rule R213 for SET FEATURES. -/
theorem ideEndOfDispatch_setFeatures (d : Ide) :
    ideEndOfDispatch (ideSetFeaturesBody d) =
      { d with
        status :=
          if d.features = 0x01#8 ∨ d.features = 0x03#8 then d.status &&& 0xDF#8
          else (d.status ||| 0x01#8) &&& 0xDF#8
        error := 0x00#8 } := by
  unfold ideSetFeaturesBody
  by_cases haccepted : d.features = 0x01#8 ∨ d.features = 0x03#8
  · rw [if_pos (featureAccepted_iff.2 haccepted), if_pos haccepted]
    rfl
  · rw [if_neg (mt featureAccepted_iff.1 haccepted), if_neg haccepted, ideEndOfDispatch_abort]

theorem exec_ideCmdIdentify_of_selects (h : s.Selects n g d) :
    exec (.ideCmdIdentify n) s =
      .next ((s.putIde n (ideEndOfDispatch (ideIdentifyBody s.config g d))).returning .nothing) :=
  (exec_ideCmdIdentify n s).trans
    (h.performWrite_gated (f := fun g d => ideEndOfDispatch (ideIdentifyBody s.config g d)) rfl)

/-- Settles O54. -/
theorem identifyLoadsBuffer : Obligations.IdentifyLoadsBuffer := by
  intro s n g d hs hc hselected
  refine ⟨decodeInvertsEncode (.ideCmdIdentify n) rfl, ?_⟩
  rw [exec_ideCmdIdentify_of_selects ⟨hs, hc, hselected⟩, ideEndOfDispatch_identify]
  rfl

/-- Settles O56. -/
theorem setFeaturesOutcome : Obligations.SetFeaturesOutcome := by
  intro s n v g d hs hc hselected
  have h : s.Selects n g d := ⟨hs, hc, hselected⟩
  refine ⟨(exec_ideWrFeatures n v s).trans (h.performWrite_gated rfl), ?_⟩
  rw [← ideEndOfDispatch_setFeatures]
  exact (exec_ideCmdSetFeatures n s).trans (h.performWrite_gated rfl)

/-- Settles O57: the refusal needs the policy and a code that is not 0x00. -/
theorem unrecognizedCommandOutcome : Obligations.UnrecognizedCommandOutcome := by
  intro s n v g d hs hc hselected
  have hgate := driveSelected_iff.2 hselected
  rw [exec_ideCmdOther]
  refine ⟨fun habort => ?_, fun hrefuse hv => State.performWrite_error hs ?_⟩
  · have hrun : ¬ (s.config.ideUnlistedCmd = .refuse ∧ v ≠ 0x00#8) := by
      rintro ⟨hrefuse, hv⟩
      exact habort.elim (fun h => nomatch h.symm.trans hrefuse) hv
    have hrule : ideUnrecognized n v s = .ok (s.putIde n (ideEndOfDispatch (ideAbort d))) := by
      simp only [ideUnrecognized, hc, if_pos hgate, if_neg hrun]
    rw [← ideEndOfDispatch_abort]
    exact State.performWrite_ok hs hrule hs.1
  · simp only [ideUnrecognized, hc, if_pos hgate, if_pos (And.intro hrefuse hv)]

end Commands

/-! ### Runs of data reads (property L1.5) -/

section Runs

variable {s : State} {n : Nat} {g : IdeConfig} {d : Ide}

/-- A transaction that leaves drive/head alone leaves the controller selected. -/
theorem State.Selects.putIde (h : s.Selects n g d) {e : Ide} (hdrvhead : e.drvhead = d.drvhead)
    (r : Result) : ((s.putIde n e).returning r).Selects n g e where
  ready := h.ready
  ide := by
    obtain ⟨hg, hd⟩ := State.ide?_eq.1 h.ide
    exact State.ide?_eq.2 ⟨hg, List.getElem?_set_self (List.getElem?_eq_some_iff.1 hd).1⟩
  selected := hdrvhead ▸ h.selected

/-- Rule R201, inside the buffer: the byte at the cursor is answered and the cursor passes it. -/
theorem State.Selects.dataRead (h : s.Selects n g d) (hlt : d.cursor < 512) :
    ∃ t e, exec (.ideRdData n) s = .next t ∧ t.Selects n g e ∧
      t.result = .opinion (some d.buffer[d.cursor]) ∧ e.buffer = d.buffer ∧
      e.cursor = d.cursor + 1 ∧ e.status.getLsbD 3 = decide (d.cursor + 1 < 512) := by
  have hread : ideDataRead g d = { d with
      cursor := d.cursor + 1, status := statusAfterSectorRead (d.cursor + 1) d.status } := by
    rw [ideDataRead, if_pos h.gate, if_pos hlt]
  refine ⟨_, ideDataRead g d, exec_ideRdData_of_lt h hlt, h.putIde ?_ _, rfl, ?_⟩ <;> rw [hread]
  exact ⟨rfl, rfl, drq_statusAfterSectorRead _ _⟩

/-- The read that answers byte `i` of the buffer leaves the cursor behind it, and DRQ tells whether
bytes remain. -/
theorem execAll_ideRdData {r i : Nat} {b : Vector Byte 512} (h : s.Selects n g d)
    (hb : d.buffer = b) (hi : d.cursor + r = i) (hlt : i < 512) :
    ∃ t e, execAll (List.replicate (r + 1) (.ideRdData n)) s = .next t ∧
      t.result = .opinion (some b[i]) ∧ t.ides[n]? = some e ∧ e.cursor = i + 1 ∧
      e.status.getLsbD 3 = decide (i + 1 < 512) := by
  induction r generalizing s d with
  | zero =>
    obtain rfl : d.cursor = i := hi
    obtain ⟨t, e, hexec, ht, hresult, -, hcursor, hdrq⟩ := h.dataRead hlt
    subst hb
    exact ⟨t, e, execAll_cons_of_next hexec, hresult, (State.ide?_eq.1 ht.ide).2, hcursor, hdrq⟩
  | succ r ih =>
    obtain ⟨t, e, hexec, ht, -, hbuffer, hcursor, -⟩ := h.dataRead (by omega)
    rw [List.replicate_succ, execAll_cons_of_next hexec]
    exact ih ht (hbuffer.trans hb) (by omega)

/-- Settles O58: IDENTIFY puts the cursor on byte 0, and read `r` from there answers byte `r`. -/
theorem identifyThenReadsDeliverBlock : Obligations.IdentifyThenReadsDeliverBlock := by
  intro s n g d hs hc hselected r hr
  have h : s.Selects n g d := ⟨hs, hc, hselected⟩
  rw [execAll_cons_of_next (exec_ideCmdIdentify_of_selects h)]
  have hidentified := h.putIde (e := ideEndOfDispatch (ideIdentifyBody s.config g d)) rfl .nothing
  exact execAll_ideRdData hidentified rfl (Nat.zero_add r) hr

end Runs

end Machine
end Sys2Proof
end

section
/-! The DigitalIO's transactions (spec/44_digital_io.md), on a board whose DigitalIO `n` holds the
latch `d`. -/

namespace Sys2Proof.Machine

variable {s : State} {n : Nat} {d : Dio}

/-- Rule R226. -/
theorem readDio_of_some (hd : s.dios[n]? = some d) :
    readDio n s = .ok (.answered s (some d.input)) := by
  simp only [readDio, hd]

/-- Rules R227 and R228. -/
theorem writeDio_of_some (hd : s.dios[n]? = some d) (v : Byte) :
    writeDio n v s = .ok (s.emit (.dioOut n v)) := by
  simp only [writeDio, hd]

/-- Rule R229. -/
theorem setDioInput_of_some (hd : s.dios[n]? = some d) (v : Byte) :
    setDioInput n v s = .ok (s.putDio n { d with input := v }) := by
  simp only [setDioInput, hd]

/-- Settles O59. -/
theorem dioReadsLatchAndWritesEvent : Obligations.DioReadsLatchAndWritesEvent := by
  intro s n v d hs hd
  exact ⟨State.performRead_answered hs (readDio_of_some hd) hs.1,
    State.performWrite_ok hs (writeDio_of_some hd v) hs.1⟩

/-- A running state is ready once the emulation thread's read is finished. -/
theorem State.finishRead_ready (hs : s.stop = .running) : s.finishRead.Ready :=
  ⟨s.finishRead_stop.trans hs, s.finishRead_emuRest⟩

/-- No sub-step of a read reaches a DigitalIO's latch. -/
@[simp] theorem State.finishRead_dios (s : State) : s.finishRead.dios = s.dios := by
  obtain ⟨as, is, x, e, hframe⟩ := s.finishRead_frame
  rw [hframe]

/-- Settles O60: by rule R165's program order the transaction runs from the state in which the
outstanding read is finished, and there the latches are what they were. -/
theorem hostSetsDioLatch : Obligations.HostSetsDioLatch := by
  intro s n v d hs hd
  have hready : s.finishRead.Ready := State.finishRead_ready hs
  have hd' : s.finishRead.dios[n]? = some d := by rwa [s.finishRead_dios]
  refine ⟨?_, State.finishRead_of_none⟩
  calc exec (.dioSetInput n v) s
      = exec (.dioSetInput n v) s.finishRead :=
        ((ownSubStepComesFirst s (.dioSetInput n v)).1 fun _ _ => Instr.noConfusion).1
    _ = .next ((s.finishRead.putDio n { d with input := v }).returning .nothing) :=
        State.performWrite_ok hready (setDioInput_of_some hd' v) hready.1
    _ = .next { s.finishRead with
          dios := s.dios.set n { d with input := v }, result := .nothing } := by
        rw [State.putDio, s.finishRead_dios, State.returning]

end Sys2Proof.Machine
end

section
/-! The board of the reset state (spec/95_test_vectors.md Board B, rule R261). -/

namespace Sys2Proof.Machine

/-- No condition of decision D31 reads a value Board B leaves free (its identify template and the
sectors of its store), so that each of them evaluates. -/
theorem boardB_admitted : Config.boardB.Admitted := by decide

/-- Settles O12: the reset state is the power-on state of Board B, which construction admits. -/
theorem resetMeetsInv : Obligations.ResetMeetsInv := powerOnMeetsInv Config.boardB boardB_admitted

end Sys2Proof.Machine
end
